-- ==== Sys2Proof/Word.lean ====
section
/-! DEFINITION. The words the core takes in: a byte, the 160-byte payload, the 164-byte packet
(30_encoding.md R70; 00_scope.md R8: `P[0]` is the first byte on the link, bit 0 the least significant bit). -/

namespace Sys2Proof

/-- One byte of a packet or of the frame buffer. -/
abbrev Byte := BitVec 8

/-- The payload `P[4..163]` of a packet: 160 bytes in arrival order (R70; `PAYLOAD_BYTES` of 00_scope.md R6). -/
abbrev Payload := Vector Byte 160

/-- One delivered packet `P[0..163]` (R70): the four header bytes and the payload. -/
structure Packet where
  b0 : Byte
  b1 : Byte
  b2 : Byte
  b3 : Byte
  payload : Payload
deriving DecidableEq, Repr

end Sys2Proof
end

