-- ==== Sys2Proof/Config.lean ====
section
/-! DEFINITION. What an implementation fixes: the constants of 00_scope.md R6, the open parameters of R7, and the
free values, which the spec leaves open and which have no body here. -/

namespace Sys2Proof

namespace Config

/-- `PACKET_BYTES` (R6). -/
@[simp] abbrev packetBytes : Nat := 164
/-- `PAYLOAD_BYTES` (R6), also the length of a frame-buffer row (20_memory.md R51). -/
@[simp] abbrev payloadBytes : Nat := 160
/-- The rows of the frame buffer, 240 (20_memory.md R51). -/
@[simp] abbrev fbRows : Nat := 240
/-- `FB_BYTES` (R6). -/
@[simp] abbrev fbBytes : Nat := 38400
/-- The samples of the frame buffer, 19200 (20_memory.md R51). -/
@[simp] abbrev fbSamples : Nat := 19200
/-- `SAMPLES_PER_PACKET` (R6). -/
@[simp] abbrev samplesPerPacket : Nat := 80
/-- `PIDS_PER_SEG` (R6), as the 8-bit counter is reduced by it. -/
@[simp] abbrev pidsPerSeg : BitVec 8 := 60#8
/-- `PPF_SINGLE` (R6). -/
@[simp] abbrev ppfSingle : BitVec 8 := 60#8
/-- `PPF_MULTI` (R6). -/
@[simp] abbrev ppfMulti : BitVec 8 := 240#8
/-- `V_RES_SINGLE_MAX` (R6). -/
@[simp] abbrev vResSingleMax : BitVec 16 := 60#16
/-- `SPECIAL_PID` (R6). -/
@[simp] abbrev specialPid : BitVec 12 := 20#12
/-- `PIDS_PER_SEG - 1`, the largest id of a normal packet (40_packet_codec.md R93). -/
@[simp] abbrev maxNormalPid : BitVec 12 := 59#12
/-- The largest id whose low nibble of byte 0 is not the discard marker (40_packet_codec.md R94). -/
@[simp] abbrev maxOorPid : BitVec 12 := 3839#12
/-- `DISCARD_NIBBLE` (R6). -/
@[simp] abbrev discardNibble : BitVec 4 := 0xF#4
/-- `FIRST_PID` (R6). -/
@[simp] abbrev firstPid : BitVec 8 := 0#8
/-- `FIRST_SEG` (R6). -/
@[simp] abbrev firstSeg : BitVec 3 := 1#3

/-- FREE VALUE, log 6 (93_implementation_defined.md U6, U7, U12): what a frame-buffer byte reads as where the rules
give the read no meaning. Arguments: the hardware resets so far, the byte an accept step last wrote there since then, if
any, the address; so two reads agree unless an accept step or a reset wrote the byte in between (20_memory.md R55). -/
opaque freeByte : Nat → Option (BitVec 8) → Nat → BitVec 8

/-- FREE VALUE, log 12: what the 16-bit status port shows of a `quiet_cnt` that does not fit it (10_state.md R33
gives no result there). -/
opaque freeQuietStatus : Nat → BitVec 16

end Config

/-- The open parameters of 00_scope.md R7. Durations are whole microseconds (log 5). -/
structure Params where
  /-- `QUIET_MIN`, in microseconds. -/
  quietMin : Nat
  /-- `T_TICK`, in microseconds. -/
  tTick : Nat
  /-- `QUIET_TICKS`. -/
  quietTicks : Nat
  /-- `QW`, the width of `quiet_cnt`. -/
  qw : Nat
  /-- `CAPTURE_FORCES_RESYNC` (44_host_interface.md R152). -/
  captureForcesResync : Bool
deriving DecidableEq, Repr

/-- The default of every parameter (R7): 200 ms, 1 ms, 201, 8, 0. -/
def Params.initial : Params :=
  { quietMin := 200000, tTick := 1000, quietTicks := 201, qw := 8, captureForcesResync := false }

/-- The constraints R7 puts on the parameters. -/
def Params.wf (p : Params) : Bool :=
  decide (0 < p.tTick) && decide (1 ≤ p.quietTicks) && decide (p.quietMin ≤ (p.quietTicks - 1) * p.tTick) &&
    decide (p.quietTicks < 2 ^ p.qw)

end Sys2Proof
end

