-- ==== Sys2Proof/Syntax.lean ====
section
/-! DEFINITION. The instructions: one constructor per row of spec/opcode_table.json, its operands those the row's
rule names. Header bits and argument bits the spec calls ignored (30_encoding.md R78, R80) are no operands. -/

namespace Sys2Proof

/-- The 17 rows of the opcode table. -/
inductive Instr where
  /-- `PKT.DISCARD` (42_frame_assembler.md R112): the payload is carried and never looked at (30_encoding.md R76). -/
  | pktDiscard (payload : Payload)
  /-- `PKT.SPECIAL` (R115): the 3-bit segment number. -/
  | pktSpecial (seg : BitVec 3) (payload : Payload)
  /-- `PKT.NORMAL` (R114): the id (0..59) and the segment field, which is carried and never read. -/
  | pktNormal (pid : BitVec 12) (seg : BitVec 3) (payload : Payload)
  /-- `PKT.OOR` (R116): the id (60..3839) and the segment field, which is never read. -/
  | pktOor (pid : BitVec 12) (seg : BitVec 3) (payload : Payload)
  /-- `CMD.SET_GEOMETRY` (44_host_interface.md R141): the new `h_res` and `v_res`. -/
  | cmdSetGeometry (h v : BitVec 16)
  /-- `CMD.SET_FORMAT` (R142): the new `fmt_sel`. -/
  | cmdSetFormat (b : Bool)
  /-- `CMD.CAPTURE_START` (R143). -/
  | cmdCaptureStart
  /-- `CMD.RESERVED` (R144). -/
  | cmdReserved
  /-- `ST.READ` (10_state.md R33): the select number. -/
  | stRead (sel : BitVec 4)
  /-- `FB.READ` (20_memory.md R55): the sample index. -/
  | fbRead (i : BitVec 15)
  /-- `RX.RECEIVE` (41_receiver.md R101): the delivered packet. -/
  | rxReceive (p : Packet)
  /-- `RX.DROP` (R102): the packet is not inspected. -/
  | rxDrop
  /-- `RX.UNARMED` (R104): the packet is not received. -/
  | rxUnarmed
  /-- `SC.START` (43_sync_controller.md R132). -/
  | scStart
  /-- `SC.TICK` (R133). -/
  | scTick
  /-- `SC.FINISH` (R134). -/
  | scFinish
  /-- `RESET` (70_reset_and_hazards.md R180). -/
  | reset
deriving DecidableEq, Repr

end Sys2Proof
end

