-- ==== Sys2Proof/WellFormed.lean ====
section
/-! DEFINITION. When an instruction's operands are ones its encoding admits. The condition a row puts on the STATE
(`packets_per_frame`) is `PacketClass.fits` of Decode.lean. -/

namespace Sys2Proof

/-- Operand ranges: a normal id is 0..59 (40_packet_codec.md R93), an out-of-range id 60..3839 (R94), a sample
index 0..19199 (20_memory.md R55). Every other operand is as wide as its field. -/
def Instr.wf : Instr → Bool
  | .pktDiscard _ => true
  | .pktSpecial _ _ => true
  | .pktNormal pid _ _ => decide (pid ≤ Config.maxNormalPid)
  | .pktOor pid _ _ => decide (Config.maxNormalPid < pid) && decide (pid ≤ Config.maxOorPid)
  | .cmdSetGeometry _ _ => true
  | .cmdSetFormat _ => true
  | .cmdCaptureStart => true
  | .cmdReserved => true
  | .stRead _ => true
  | .fbRead i => decide (i.toNat < Config.fbSamples)
  | .rxReceive _ => true
  | .rxDrop => true
  | .rxUnarmed => true
  | .scStart => true
  | .scTick => true
  | .scFinish => true
  | .reset => true

end Sys2Proof
end

