-- ==== Sys2Proof/Decode.lean ====
section
/-! DEFINITION. The packet codec (header fields, classifier), the decoder of everything that reaches the core's
boundary, and after it the encoder. -/

namespace Sys2Proof

/-- The four outcomes of the classifier (40_packet_codec.md R90). -/
inductive PacketClass where
  | discard
  | special (seg : BitVec 3)
  | normal (pid : BitVec 12) (seg : BitVec 3)
  | oor (pid : BitVec 12) (seg : BitVec 3)
deriving DecidableEq, Repr

/-- What an agent presents at the core's boundary, or which internal step fires (00_scope.md R5; log 1). -/
inductive Stimulus where
  /-- L: `pkt_valid` with the bytes of one packet, raw (41_receiver.md R101). -/
  | packet (bytes : List Byte)
  /-- H: the command port, `cmd_op` and `cmd_arg` (30_encoding.md R79). -/
  | command (op : BitVec 2) (arg : BitVec 32)
  /-- H: the status port's select (10_state.md R33). -/
  | statusRead (sel : BitVec 4)
  /-- H: the frame-buffer port's sample index (20_memory.md R55). -/
  | frameRead (i : BitVec 15)
  /-- SC: the internal step `SC.START` fires (43_sync_controller.md R132). -/
  | recoveryStart
  /-- T: one timebase tick (R133). -/
  | tick
  /-- SC: the internal step `SC.FINISH` fires (R134). -/
  | recoveryFinish
  /-- The hardware reset input (70_reset_and_hazards.md R180). -/
  | hardwareReset
deriving DecidableEq, Repr

/-- Why the decoder rejects a stimulus. Neither exists at the core's boundary. -/
inductive DecodeReject where
  /-- A link unit that is not 164 bytes long (30_encoding.md R70; log 20). -/
  | badPacketLength (n : Nat)
  /-- A sample index above 19199 (20_memory.md R55; 93_implementation_defined.md U7). -/
  | noSuchSample (i : Nat)
deriving DecidableEq, Repr

/-! ## Header fields -/

/-- `packet_id` = `P[0][3:0] : P[1]`, 12 bits (30_encoding.md R72). -/
def packetId (b0 b1 : Byte) : BitVec 12 :=
  b0.extractLsb' 0 4 ++ b1

/-- `segment_id` = `P[0][6:4]`, 3 bits (R73; conflict C2). -/
def segmentId (b0 : Byte) : BitVec 3 :=
  b0.extractLsb' 4 3

/-- `is_discard`: the LOW nibble of byte 0 is 0xF (R74; conflict C1). -/
def isDiscard (b0 : Byte) : Bool :=
  decide (b0.extractLsb' 0 4 = Config.discardNibble)

/-- `classify(P[0..3], packets_per_frame)`: the four tests of R90 in their order; bytes 2 and 3 are never read
(R75). -/
def classify (b0 b1 _b2 _b3 : Byte) (ppf : BitVec 8) : PacketClass :=
  if isDiscard b0 then .discard
  else if packetId b0 b1 = Config.specialPid ∧ ppf = Config.ppfMulti then .special (segmentId b0)
  else if packetId b0 b1 ≤ Config.maxNormalPid then .normal (packetId b0 b1) (segmentId b0)
  else .oor (packetId b0 b1) (segmentId b0)

/-- The class of a packet: that of its header. -/
def Packet.classOf (p : Packet) (ppf : BitVec 8) : PacketClass :=
  classify p.b0 p.b1 p.b2 p.b3 ppf

/-- The `condition` column of a `PKT` row: whether the class is one the classifier can give in this geometry
(30_encoding.md R77). -/
def PacketClass.fits (ppf : BitVec 8) : PacketClass → Bool
  | .discard => true
  | .special _ => decide (ppf = Config.ppfMulti)
  | .normal pid _ => decide (pid ≤ Config.maxNormalPid) && !decide (pid = Config.specialPid ∧ ppf = Config.ppfMulti)
  | .oor pid _ => decide (Config.maxNormalPid < pid) && decide (pid ≤ Config.maxOorPid)

/-- The `PKT` row a class with its payload is. -/
def PacketClass.toInstr (payload : Payload) : PacketClass → Instr
  | .discard => .pktDiscard payload
  | .special seg => .pktSpecial seg payload
  | .normal pid seg => .pktNormal pid seg payload
  | .oor pid seg => .pktOor pid seg payload

/-- The `PKT` row of a packet in a geometry: the row `RX.RECEIVE` runs when nothing is dropped (41_receiver.md R101). -/
def Packet.toRow (p : Packet) (ppf : BitVec 8) : Instr :=
  (p.classOf ppf).toInstr p.payload

/-! ## The decoder -/

/-- The whole packet in a link unit; a unit of another length does not exist (30_encoding.md R70). -/
def parsePacket : List Byte → Except DecodeReject Packet
  | b0 :: b1 :: b2 :: b3 :: rest =>
    if h : rest.length = 160 then .ok ⟨b0, b1, b2, b3, ⟨⟨rest⟩, h⟩⟩ else .error (.badPacketLength (rest.length + 4))
  | short => .error (.badPacketLength short.length)

/-- A host command (30_encoding.md R80). -/
def decodeCommand (op : BitVec 2) (arg : BitVec 32) : Instr :=
  if op = 0#2 then .cmdSetGeometry (arg.extractLsb' 0 16) (arg.extractLsb' 16 16)
  else if op = 1#2 then .cmdSetFormat (arg.getLsbD 0)
  else if op = 2#2 then .cmdCaptureStart
  else .cmdReserved

/-- A frame-buffer read; indexes above 19199 are refused (20_memory.md R55; U7). -/
def decodeFrameRead (i : BitVec 15) : Except DecodeReject Instr :=
  if i.toNat < Config.fbSamples then .ok (.fbRead i) else .error (.noSuchSample i.toNat)

/-- What the core runs for a stimulus: a packet is `RX.RECEIVE` while reception is armed and `RX.UNARMED` while it
is not (41_receiver.md R101, R104); every other stimulus is one row. -/
def decode (armed : Bool) : Stimulus → Except DecodeReject Instr
  | .packet bytes =>
    match parsePacket bytes with
    | .error e => .error e
    | .ok p => .ok (if armed then .rxReceive p else .rxUnarmed)
  | .command op arg => .ok (decodeCommand op arg)
  | .statusRead sel => .ok (.stRead sel)
  | .frameRead i => decodeFrameRead i
  | .recoveryStart => .ok .scStart
  | .tick => .ok .scTick
  | .recoveryFinish => .ok .scFinish
  | .hardwareReset => .ok .reset

/-- The same with a packet taken to its `PKT` row in a geometry (40_packet_codec.md R90). -/
def decodeRow (ppf : BitVec 8) : Stimulus → Except DecodeReject Instr
  | .packet bytes =>
    match parsePacket bytes with
    | .error e => .error e
    | .ok p => .ok (p.toRow ppf)
  | .command op arg => .ok (decodeCommand op arg)
  | .statusRead sel => .ok (.stRead sel)
  | .frameRead i => decodeFrameRead i
  | .recoveryStart => .ok .scStart
  | .tick => .ok .scTick
  | .recoveryFinish => .ok .scFinish
  | .hardwareReset => .ok .reset

/-! ## The encoder -/

/-- The bytes of a packet as the link delivers them. -/
def Packet.bytes (p : Packet) : List Byte :=
  p.b0 :: p.b1 :: p.b2 :: p.b3 :: p.payload.toList

/-- Header byte 0 of a segment number and an id: bit 7, which is ignored, zero (30_encoding.md R71; log 22). -/
def headerByte0 (pid : BitVec 12) (seg : BitVec 3) : Byte :=
  0#1 ++ seg ++ pid.extractLsb' 8 4

/-- The packet of an id, a segment number and a payload: checksum zero (log 22). -/
def packetOf (pid : BitVec 12) (seg : BitVec 3) (payload : Payload) : Packet :=
  ⟨headerByte0 pid seg, pid.extractLsb' 0 8, 0#8, 0#8, payload⟩

/-- The stimulus that stands for an instruction, its ignored bits zero. `RX.DROP` and `RX.UNARMED` have none of
their own: the state selects them at any packet (30_encoding.md R83). -/
def encode : Instr → Option Stimulus
  | .pktDiscard payload => some (.packet (packetOf 0xF00#12 0#3 payload).bytes)
  | .pktSpecial seg payload => some (.packet (packetOf Config.specialPid seg payload).bytes)
  | .pktNormal pid seg payload => some (.packet (packetOf pid seg payload).bytes)
  | .pktOor pid seg payload => some (.packet (packetOf pid seg payload).bytes)
  | .cmdSetGeometry h v => some (.command 0#2 (v ++ h))
  | .cmdSetFormat b => some (.command 1#2 ((BitVec.ofBool b).setWidth 32))
  | .cmdCaptureStart => some (.command 2#2 0#32)
  | .cmdReserved => some (.command 3#2 0#32)
  | .stRead sel => some (.statusRead sel)
  | .fbRead i => some (.frameRead i)
  | .rxReceive p => some (.packet p.bytes)
  | .rxDrop => none
  | .rxUnarmed => none
  | .scStart => some .recoveryStart
  | .scTick => some .tick
  | .scFinish => some .recoveryFinish
  | .reset => some .hardwareReset

/-! ## Words as the opcode table numbers them -/

/-- The link unit whose header is the 32-bit word `H = P[0]:P[1]:P[2]:P[3]` (30_encoding.md R71), payload zero. -/
def headerWordBytes (w : Nat) : List Byte :=
  BitVec.ofNat 8 (w / 2 ^ 24) :: BitVec.ofNat 8 (w / 2 ^ 16) :: BitVec.ofNat 8 (w / 2 ^ 8) :: BitVec.ofNat 8 w ::
    List.replicate 160 0#8

/-- The stimulus of a table word (log 10): up to 8 bits are `cmd_op` with argument 0; up to 32 bits a packet
header; up to 40 bits `cmd_op` in bits 1:0 and `cmd_arg` in bits 33:2. -/
def tableStimulus (nbits w : Nat) : Option Stimulus :=
  if nbits ≤ 8 then some (.command (BitVec.ofNat 2 w) 0#32)
  else if nbits ≤ 32 then some (.packet (headerWordBytes w))
  else if nbits ≤ 40 then some (.command (BitVec.ofNat 2 w) (BitVec.ofNat 32 (w / 4)))
  else none

/-- The row the decoder reads from a table word. A `PKT` row is read in the four-segment geometry, the only one in
which every `PKT` row exists (30_encoding.md R77; log 10). -/
def decodeTableWord (nbits w : Nat) : Option Instr :=
  match tableStimulus nbits w with
  | none => none
  | some x =>
    match decodeRow Config.ppfMulti x with
    | .ok i => some i
    | .error _ => none

end Sys2Proof
end

