-- ==== Sys2Proof/Machine/State.lean ====
section
/-! DEFINITION. The state of the core as plain data: the ten variables and the frame buffer of 10_state.md R20, and
the model's own fields (INVENTORY.md, '## State'). -/

namespace Sys2Proof.Machine

/-- The state of the recovery FSM (10_state.md R28). -/
inductive ScState where
  | idle
  | quiet
deriving DecidableEq, Repr

/-- The Frame Assembler's state, derived and stored nowhere (10_state.md R32). -/
inductive FaState where
  | hunting
  | filling
  | complete
  | resyncing
deriving DecidableEq, Repr

/-- The response of a host command (30_encoding.md R81). -/
inductive Response where
  | ok
  | notConfigured
  | busy
  | illegalCommand
deriving DecidableEq, Repr

/-- The outputs of ONE step (44_host_interface.md R147, R79; 10_state.md R33; 20_memory.md R55), kept in State
because a step has no other result (log 8). The level outputs `rx_enable` and `frame_complete` are derived. -/
structure Outputs where
  /-- `pkt_evt` is pulsed. -/
  pktEvt : Bool
  /-- `rsp`. -/
  rsp : Option Response
  /-- `st_data`. -/
  stData : Option (BitVec 16)
  /-- The data of the frame-buffer read port. -/
  fbData : Option (BitVec 16)
deriving DecidableEq, Repr

/-- No output. -/
def Outputs.silent : Outputs := ⟨false, none, none, none⟩

/-- The frame buffer: the bytes written since the last hardware reset, addresses strictly rising. An unlisted
address holds a byte the model does not know (log 7). -/
abbrev Memory := List Host.Cell

/-- The machine's state. -/
structure State where
  /-- `h_res` (10_state.md R21). -/
  hRes : BitVec 16
  /-- `v_res` (R21). -/
  vRes : BitVec 16
  /-- `fmt_sel` (R22). -/
  fmtSel : Bool
  /-- `resyncing` (R24). -/
  resyncing : Bool
  /-- `expected_packet_id` (R25). -/
  expectedPacketId : BitVec 8
  /-- `expected_segment_id` (R26). -/
  expectedSegmentId : BitVec 3
  /-- `armed` (R27). -/
  armed : Bool
  /-- `capturing` (R30). -/
  capturing : Bool
  /-- `sc_state` (R28). -/
  scState : ScState
  /-- `quiet_cnt` (R29). -/
  quietCnt : Nat
  /-- `FB` (R31). -/
  fb : Memory
  /-- The open parameters (00_scope.md R7); no step writes them (log 5). -/
  params : Params
  /-- The stimuli still to be presented, oldest first (log 1). -/
  schedule : List Stimulus
  /-- The outputs of the step just taken (log 8). -/
  out : Outputs
  /-- The hardware resets so far, an argument of the free value `Config.freeByte` (log 6). -/
  fbPowerUp : Nat
deriving DecidableEq, Repr

/-- Why the machine stops with a fault. -/
inductive Fault where
  /-- A row write at or above row 240, which 20_memory.md R54 says does not exist. Raised by the accept step in a
  state with `expected_packet_id >= 240` below `packets_per_frame`'s test, which no state meeting invariant I1
  reaches. Safe: the model stops where the spec gives no step (log 11). -/
  | rowOutOfRange (row : Nat)
deriving DecidableEq, Repr

/-- Why the machine gives a step no meaning. -/
inductive Refusal where
  /-- An instruction that has no meaning yet, by its mnemonic. Raised by exec's arms only. Safe. -/
  | notModelled (mnemonic : String)
  /-- A step whose guard is false in this state: it does not exist (00_scope.md R10), so the model gives it no
  transition. Raised by the guarded rows. Safe (log 4). -/
  | notEnabled (mnemonic : String)
  /-- A stimulus that does not exist at the boundary, rejected by the decoder. Raised by fetch. Safe (log 20). -/
  | undecodable (why : DecodeReject)
  /-- A frame-buffer read of a sample above 19199, which does not exist (20_memory.md R55, U7). Raised by
  `FB.READ`. Safe. -/
  | noSuchSample (i : Nat)
deriving DecidableEq, Repr

/-- What a step or a meaning answers. -/
abbrev Result := Host.Outcome State Fault Refusal

/-- The machine right after hardware reset: the table of 10_state.md R38, nothing listed in the frame buffer, the
parameters at the defaults of 00_scope.md R7, nothing scheduled. -/
def State.reset : State :=
  { hRes := 0#16, vRes := 0#16, fmtSel := false, resyncing := true, expectedPacketId := 0#8,
    expectedSegmentId := 1#3, armed := false, capturing := false, scState := .idle, quietCnt := 0, fb := [],
    params := Params.initial, schedule := [], out := Outputs.silent, fbPowerUp := 0 }

end Sys2Proof.Machine
end

