-- ==== Sys2Proof/Machine/Flags.lean ====
section
/-! DEFINITION. The derived values of the state: geometry, assembler state, level outputs, the guards of the
internal steps (10_state.md R23, R32, R35; 43_sync_controller.md R132, R134), and the numeric codes of states and
responses (30_encoding.md R81, R82). -/

namespace Sys2Proof.Machine

/-- `packets_per_frame`, a pure function of `v_res`, compared unsigned (10_state.md R23). -/
def State.packetsPerFrame (s : State) : BitVec 8 :=
  if Config.vResSingleMax < s.vRes then Config.ppfMulti else Config.ppfSingle

/-- `fa_state`, RESYNCING first (10_state.md R32). -/
def State.faState (s : State) : FaState :=
  if s.resyncing then .resyncing
  else if s.expectedPacketId = s.packetsPerFrame then .complete
  else if s.expectedPacketId = Config.firstPid then .hunting
  else .filling

/-- The level output `frame_complete` (44_host_interface.md R147); also when the host owns the frame buffer
(10_state.md R39). -/
def State.frameComplete (s : State) : Bool := decide (s.faState = .complete)

/-- The output `rx_enable` towards the link (10_state.md R27). -/
def State.rxEnable (s : State) : Bool := s.armed

/-- The host has established the resolution and selected a format (44_host_interface.md R143). -/
def State.configured (s : State) : Bool :=
  decide (s.hRes ≠ 0#16) && decide (s.vRes ≠ 0#16) && s.fmtSel

/-- The guard of `SC.START` (43_sync_controller.md R132). -/
def State.recoveryCanStart (s : State) : Bool :=
  s.resyncing && s.capturing && decide (s.scState = .idle)

/-- The guard of `SC.FINISH` (43_sync_controller.md R134). -/
def State.recoveryCanFinish (s : State) : Bool :=
  decide (s.scState = .quiet) && decide (s.quietCnt = s.params.quietTicks)

/-- The packet of a `PKT` row reaches the Frame Assembler: reception armed and no resync pending
(41_receiver.md R101, R103). -/
def State.assembling (s : State) : Bool := s.armed && !s.resyncing

/-- The packet of `RX.DROP`: received and dropped (41_receiver.md R102). -/
def State.dropping (s : State) : Bool := s.armed && s.resyncing

/-- The 2-bit code of `fa_state` (10_state.md R32). -/
def FaState.code : FaState → BitVec 2
  | .hunting => 0#2
  | .filling => 1#2
  | .complete => 2#2
  | .resyncing => 3#2

/-- The code of `sc_state` (10_state.md R28). -/
def ScState.code : ScState → BitVec 1
  | .idle => 0#1
  | .quiet => 1#1

/-- The 2-bit response code (30_encoding.md R81). -/
def Response.code : Response → BitVec 2
  | .ok => 0#2
  | .notConfigured => 1#2
  | .busy => 2#2
  | .illegalCommand => 3#2

end Sys2Proof.Machine
end

