-- ==== Sys2Proof/Machine/Operands.lean ====
section
/-! DEFINITION. What the rows' operands come to in a state: the expected id, the row's bytes, the status variable of
a select number, the bytes of a sample (42_frame_assembler.md R111; 20_memory.md R52 to R55; 10_state.md R33). -/

namespace Sys2Proof.Machine

/-! ## Of a packet -/

/-- `expected_packet_id mod 60` zero-extended to 12 bits: what the id on the wire is compared with
(42_frame_assembler.md R123; conflict C3: the counter is reduced, the id is not). -/
def State.expectedId (s : State) : BitVec 12 :=
  (s.expectedPacketId % Config.pidsPerSeg).setWidth 12

/-- The id and segment fields of a class; a Special packet has id 20 (42_frame_assembler.md R111). A discard packet
has none. -/
def fieldsOf : PacketClass → Option (BitVec 12 × BitVec 3)
  | .discard => none
  | .special seg => some (Config.specialPid, seg)
  | .normal pid seg => some (pid, seg)
  | .oor pid seg => some (pid, seg)

/-- The class's segment field contradicts the expected one: of a Special packet only (42_frame_assembler.md R124). -/
def wrongSegment (expected : BitVec 3) : PacketClass → Bool
  | .discard => false
  | .special seg => decide (seg ≠ expected)
  | .normal _ _ => false
  | .oor _ _ => false

/-! ## Of the frame buffer -/

/-- The address of the first byte of row `r` (20_memory.md R51). -/
def rowAddress (r : Nat) : Nat := Config.payloadBytes * r

/-- The row an accepted packet goes to: the counter before the increment (42_frame_assembler.md R121; C6). -/
def State.nextRow (s : State) : Nat := s.expectedPacketId.toNat

/-- The listed bytes from an address on. -/
def cellsFrom : Nat → List Byte → Memory
  | _, [] => []
  | a, b :: bs => (a, b) :: cellsFrom (a + 1) bs

/-- The byte an address lists, or none. -/
def Memory.read : Memory → Nat → Option Byte
  | [], _ => none
  | (k, b) :: rest, a => if k = a then some b else Memory.read rest a

/-- `FbWriteRow(r, B)`: bytes `160*r .. 160*r + 159` become `B[0..159]`, every other byte stays (20_memory.md R54). -/
def Memory.writeRow (m : Memory) (r : Nat) (row : Payload) : Memory :=
  m.filter (fun c => decide (c.1 < rowAddress r)) ++ cellsFrom (rowAddress r) row.toList ++
    m.filter (fun c => decide (rowAddress r + Config.payloadBytes ≤ c.1))

/-- The canonical form from an address on: addresses strictly rising and inside the frame buffer. -/
def Memory.wfFrom : Nat → Memory → Bool
  | _, [] => true
  | lo, (k, _) :: rest => decide (lo ≤ k) && decide (k < Config.fbBytes) && Memory.wfFrom (k + 1) rest

/-- The canonical form of the frame buffer (20_memory.md R51). -/
def Memory.wf (m : Memory) : Bool := Memory.wfFrom 0 m

/-- The byte at an address that the rules give no meaning to: a free value (log 6). -/
def State.anyByte (s : State) (a : Nat) : Byte := Config.freeByte s.fbPowerUp (s.fb.read a) a

/-- Whether a read of sample `i` returns data the rules give a meaning to: in COMPLETE, below
`80 * packets_per_frame` (20_memory.md R55). -/
def State.sampleHasMeaning (s : State) (i : Nat) : Bool :=
  s.frameComplete && decide (i < Config.samplesPerPacket * s.packetsPerFrame.toNat)

/-- What byte `a` reads as through sample `i` of the port: the written byte where the read has a meaning, a free
value where it has none or nothing was written (20_memory.md R55; U6, U7, U12). -/
def State.portByte (s : State) (i a : Nat) : Byte :=
  if s.sampleHasMeaning i then (s.fb.read a).getD (s.anyByte a) else s.anyByte a

/-- `FbReadSample(i)` = `FB[2i] : FB[2i+1]`, big-endian (20_memory.md R52, R55). -/
def State.sample (s : State) (i : Nat) : BitVec 16 :=
  s.portByte i (2 * i) ++ s.portByte i (2 * i + 1)

/-! ## Of the status port -/

/-- `quiet_cnt` zero-extended to the port's 16 bits; a free value where it does not fit (log 12). -/
def State.quietStatus (s : State) : BitVec 16 :=
  if s.quietCnt < 2 ^ 16 then BitVec.ofNat 16 s.quietCnt else Config.freeQuietStatus s.quietCnt

/-- The variable of a status select number, zero-extended to 16 bits; 12 to 15 read 0 (10_state.md R20, R33). -/
def State.status (s : State) (sel : BitVec 4) : BitVec 16 :=
  match sel.toNat with
  | 0 => s.hRes
  | 1 => s.vRes
  | 2 => (BitVec.ofBool s.fmtSel).setWidth 16
  | 3 => (BitVec.ofBool s.resyncing).setWidth 16
  | 4 => s.expectedPacketId.setWidth 16
  | 5 => s.expectedSegmentId.setWidth 16
  | 6 => (BitVec.ofBool s.armed).setWidth 16
  | 7 => (BitVec.ofBool s.capturing).setWidth 16
  | 8 => s.scState.code.setWidth 16
  | 9 => s.quietStatus
  | 10 => s.packetsPerFrame.setWidth 16
  | 11 => s.faState.code.setWidth 16
  | _ => 0#16

end Sys2Proof.Machine
end

