-- ==== Sys2Proof/Machine/Ops.lean ====
section
/-! DEFINITION. The named operations the meanings are made of: outputs, counters, the exception SyncLost with its
handler and return, the accept step, the Frame Assembler's transition function. -/

namespace Sys2Proof.Machine

/-! ## Outputs -/

/-- The step's outputs are exactly `o` (00_scope.md R9: an output is asserted for this step only). -/
def State.emit (o : Outputs) (s : State) : State := { s with out := o }

/-- The step pulses nothing and answers nothing. -/
def State.quietly (s : State) : State := s.emit Outputs.silent

/-- The step pulses `pkt_evt` (41_receiver.md R101). -/
def State.packetEvent (s : State) : State := s.emit ⟨true, none, none, none⟩

/-- The step answers a command with `r` (00_scope.md R9, `respond`). -/
def State.respond (r : Response) (s : State) : State := s.emit ⟨false, some r, none, none⟩

/-! ## Counters, and the exception SyncLost -/

/-- Both counters to their start values (42_frame_assembler.md R117, R119; 44_host_interface.md R141, R143). -/
def State.restartCounters (s : State) : State :=
  { s with expectedPacketId := Config.firstPid, expectedSegmentId := Config.firstSeg }

/-- TAKING THE EXCEPTION: `raise SyncLost` is the single write `resyncing <- 1` (60_exceptions.md R163). Nothing is
saved; the counters are held (42_frame_assembler.md R126). -/
def State.raiseSyncLost (s : State) : State := { s with resyncing := true }

/-- ENTERING THE HANDLER: reception stops and the quiet interval begins (43_sync_controller.md R132). -/
def State.beginQuiet (s : State) : State :=
  { s with armed := false, quietCnt := 0, scState := .quiet }

/-- One tick of the quiet interval, saturating (43_sync_controller.md R133). -/
def State.countTick (s : State) : State :=
  if s.scState = .quiet ∧ s.quietCnt < s.params.quietTicks then { s with quietCnt := s.quietCnt + 1 } else s

/-- THE RETURN: SyncState to its start, reception re-armed (43_sync_controller.md R134; 60_exceptions.md R164). -/
def State.returnFromResync (s : State) : State :=
  { s.restartCounters with resyncing := false, armed := true, scState := .idle }

/-! ## The Frame Assembler -/

/-- An id that does not match: in Hunting the counters restart, elsewhere SyncLost (42_frame_assembler.md R117, R118). -/
def State.idMismatch (s : State) : State :=
  if s.expectedPacketId = Config.firstPid then s.restartCounters else s.raiseSyncLost

/-- A special packet of the wrong segment: in the first segment back to Hunting, later SyncLost
(42_frame_assembler.md R119, R120). -/
def State.segmentMismatch (s : State) : State :=
  if s.expectedSegmentId = Config.firstSeg then s.restartCounters else s.raiseSyncLost

/-- `expected_packet_id` after an accept step. -/
def State.advancedId (s : State) : BitVec 8 := s.expectedPacketId + 1#8

/-- What an accept step writes, every read being of the state before it (42_frame_assembler.md R121, R122). -/
def State.accepted (payload : Payload) (s : State) : State :=
  { s with
    fb := s.fb.writeRow s.nextRow payload
    expectedPacketId := s.advancedId
    expectedSegmentId :=
      if s.advancedId % Config.pidsPerSeg = 0#8 then s.expectedSegmentId + 1#3 else s.expectedSegmentId
    capturing := if s.advancedId = s.packetsPerFrame then false else s.capturing }

/-- The accept step; a row that does not exist is a fault (20_memory.md R54; log 11). -/
def acceptPacket (payload : Payload) (s : State) : Result :=
  if s.nextRow < Config.fbRows then .next (s.accepted payload) else .fault (.rowOutOfRange s.nextRow)

/-- `FA.on_packet(c, payload)`, the whole transition function (42_frame_assembler.md R111). -/
def onPacket (c : PacketClass) (payload : Payload) (s : State) : Result :=
  match fieldsOf c with
  | none => .next s
  | some (pid, _) =>
    if s.expectedPacketId = s.packetsPerFrame then .next s
    else if pid ≠ s.expectedId then .next s.idMismatch
    else if wrongSegment s.expectedSegmentId c then .next s.segmentMismatch
    else acceptPacket payload s

/-- A received packet of a `PKT` row: the row exists only while packets reach the assembler and the geometry admits
the class (41_receiver.md R101, R103; 30_encoding.md R77; log 9); then `pkt_evt` pulses and the assembler runs. -/
def assemble (mnemonic : String) (c : PacketClass) (payload : Payload) (s : State) : Result :=
  if s.assembling && c.fits s.packetsPerFrame then onPacket c payload s.packetEvent
  else .refused (.notEnabled mnemonic)

/-! ## Hardware reset -/

/-- The state after hardware reset (70_reset_and_hazards.md R180): the reset table, the frame buffer unspecified
anew; the parameters and what the environment has still to present stay. -/
def State.afterReset (s : State) : State :=
  { State.reset with params := s.params, schedule := s.schedule, fbPowerUp := s.fbPowerUp + 1 }

end Sys2Proof.Machine
end

