-- ==== Sys2Proof/Machine/Command.lean ====
section
/-! DEFINITION. The `CMD` rows: the host's commands (44_host_interface.md R141 to R144). A response other than OK
changes no state (30_encoding.md R81). -/

namespace Sys2Proof.Machine

/-- `CMD.SET_GEOMETRY` (R141): Busy during a capture, else the resolution and the counters. -/
def execSetGeometry (h v : BitVec 16) (s : State) : Result :=
  if s.capturing then .next (s.respond .busy)
  else .next (State.respond .ok { s.restartCounters with hRes := h, vRes := v })

/-- `CMD.SET_FORMAT` (R142): accepted in every state. -/
def execSetFormat (b : Bool) (s : State) : Result :=
  .next (State.respond .ok { s with fmtSel := b })

/-- `CMD.CAPTURE_START` (R143): NotConfigured is tested before Busy; `resyncing` is set only under
`CAPTURE_FORCES_RESYNC` (R152) and never cleared. -/
def execCaptureStart (s : State) : Result :=
  if !s.configured then .next (s.respond .notConfigured)
  else if s.capturing then .next (s.respond .busy)
  else
    .next (State.respond .ok
      { s.restartCounters with capturing := true, resyncing := s.resyncing || s.params.captureForcesResync })

/-- `CMD.RESERVED` (R144). -/
def execReserved (s : State) : Result :=
  .next (s.respond .illegalCommand)

end Sys2Proof.Machine
end

