-- ==== Sys2Proof/Machine/Packet.lean ====
section
/-! DEFINITION. The `PKT` rows: the step of a packet of each class that reaches the Frame Assembler
(42_frame_assembler.md R112 to R116). -/

namespace Sys2Proof.Machine

/-- `PKT.DISCARD` (R112): nothing changes, in any state. -/
def execPktDiscard (payload : Payload) (s : State) : Result :=
  assemble "PKT.DISCARD" .discard payload s

/-- `PKT.SPECIAL` (R115): the id check against 20 first, then the segment check. -/
def execPktSpecial (seg : BitVec 3) (payload : Payload) (s : State) : Result :=
  assemble "PKT.SPECIAL" (.special seg) payload s

/-- `PKT.NORMAL` (R114): the id check only. -/
def execPktNormal (pid : BitVec 12) (seg : BitVec 3) (payload : Payload) (s : State) : Result :=
  assemble "PKT.NORMAL" (.normal pid seg) payload s

/-- `PKT.OOR` (R116): always an id mismatch. -/
def execPktOor (pid : BitVec 12) (seg : BitVec 3) (payload : Payload) (s : State) : Result :=
  assemble "PKT.OOR" (.oor pid seg) payload s

end Sys2Proof.Machine
end

