-- ==== Sys2Proof/Machine/Port.lean ====
section
/-! DEFINITION. The `PORT` rows: the host's two read ports (10_state.md R33; 20_memory.md R55). Neither changes
state. -/

namespace Sys2Proof.Machine

/-- `ST.READ` (10_state.md R33). -/
def execStRead (sel : BitVec 4) (s : State) : Result :=
  .next (s.emit ⟨false, none, some (s.status sel), none⟩)

/-- `FB.READ` (20_memory.md R55): a sample above 19199 does not exist (U7). -/
def execFbRead (i : BitVec 15) (s : State) : Result :=
  if i.toNat < Config.fbSamples then .next (s.emit ⟨false, none, none, some (s.sample i.toNat)⟩)
  else .refused (.noSuchSample i.toNat)

end Sys2Proof.Machine
end

