-- ==== Sys2Proof/Machine/Receiver.lean ====
section
/-! DEFINITION. The `RX` rows: what the receiver does with a packet (41_receiver.md R101, R102, R104). -/

namespace Sys2Proof.Machine

/-- `RX.RECEIVE` (R101): `pkt_evt` pulses; with a resync pending the packet is dropped, else it is classified and
handed to the Frame Assembler in the same step. -/
def execRxReceive (p : Packet) (s : State) : Result :=
  if !s.armed then .refused (.notEnabled "RX.RECEIVE")
  else if s.resyncing then .next s.packetEvent
  else onPacket (p.classOf s.packetsPerFrame) p.payload s.packetEvent

/-- `RX.DROP` (R102): `pkt_evt` pulses and nothing changes. -/
def execRxDrop (s : State) : Result :=
  if s.dropping then .next s.packetEvent else .refused (.notEnabled "RX.DROP")

/-- `RX.UNARMED` (R104): the packet is not received, nothing is pulsed and nothing changes. -/
def execRxUnarmed (s : State) : Result :=
  if s.armed then .refused (.notEnabled "RX.UNARMED") else .next s.quietly

end Sys2Proof.Machine
end

