-- ==== Sys2Proof/Machine/Recovery.lean ====
section
/-! DEFINITION. The `SC` rows, the steps of the recovery procedure (43_sync_controller.md R132 to R134), and
`RESET` (70_reset_and_hazards.md R180). -/

namespace Sys2Proof.Machine

/-- `SC.START` (R132). -/
def execScStart (s : State) : Result :=
  if s.recoveryCanStart then .next s.beginQuiet.quietly else .refused (.notEnabled "SC.START")

/-- `SC.TICK` (R133): a tick can always arrive. -/
def execScTick (s : State) : Result :=
  .next s.countTick.quietly

/-- `SC.FINISH` (R134). -/
def execScFinish (s : State) : Result :=
  if s.recoveryCanFinish then .next s.returnFromResync.quietly else .refused (.notEnabled "SC.FINISH")

/-- `RESET` (70_reset_and_hazards.md R180): may happen in any state. -/
def execReset (s : State) : Result :=
  .next s.afterReset

end Sys2Proof.Machine
end

