-- ==== Sys2Proof/Machine/Dispatch.lean ====
section
/-! DEFINITION. One arm per row of the opcode table. -/

namespace Sys2Proof.Machine

def exec (i : Instr) (s : State) : Host.Outcome State Fault Refusal :=
  match i with
  -- packets that reach the Frame Assembler
  | .pktDiscard payload => Sys2Proof.Machine.execPktDiscard payload s
  | .pktSpecial seg payload => Sys2Proof.Machine.execPktSpecial seg payload s
  | .pktNormal pid seg payload => Sys2Proof.Machine.execPktNormal pid seg payload s
  | .pktOor pid seg payload => Sys2Proof.Machine.execPktOor pid seg payload s
  -- host commands
  | .cmdSetGeometry h v => Sys2Proof.Machine.execSetGeometry h v s
  | .cmdSetFormat b => Sys2Proof.Machine.execSetFormat b s
  | .cmdCaptureStart => Sys2Proof.Machine.execCaptureStart s
  | .cmdReserved => Sys2Proof.Machine.execReserved s
  -- host read ports
  | .stRead sel => Sys2Proof.Machine.execStRead sel s
  | .fbRead j => Sys2Proof.Machine.execFbRead j s
  -- the receiver
  | .rxReceive p => Sys2Proof.Machine.execRxReceive p s
  | .rxDrop => Sys2Proof.Machine.execRxDrop s
  | .rxUnarmed => Sys2Proof.Machine.execRxUnarmed s
  -- the recovery FSM and the reset input
  | .scStart => Sys2Proof.Machine.execScStart s
  | .scTick => Sys2Proof.Machine.execScTick s
  | .scFinish => Sys2Proof.Machine.execScFinish s
  | .reset => Sys2Proof.Machine.execReset s

end Sys2Proof.Machine
end

