-- ==== Sys2Proof/Machine/Fetch.lean ====
section
/-! DEFINITION. Which step comes next: the oldest scheduled stimulus, or with none the core's own move
(00_scope.md R5; log 1, log 2); and how a table word is put there (log 3). -/

namespace Sys2Proof.Machine

/-- The move when nothing is scheduled: an enabled recovery step fires, else the timebase ticks
(70_reset_and_hazards.md R195; log 2). -/
def State.ownMove (s : State) : Instr :=
  if s.recoveryCanStart then .scStart
  else if s.recoveryCanFinish then .scFinish
  else .scTick

/-- The instruction of the next step and the state it runs in. -/
def fetch (s : State) : Except DecodeReject (Instr × State) :=
  match s.schedule with
  | [] => .ok (s.ownMove, s)
  | x :: rest =>
    match decode s.armed x with
    | .error e => .error e
    | .ok i => .ok (i, { s with schedule := rest })

/-- The stimulus is presented next. -/
def State.present (x : Stimulus) (s : State) : State := { s with schedule := x :: s.schedule }

/-- Whether a stimulus is a packet whose id is that of a Special packet. -/
def isSpecialPattern (x : Stimulus) : Bool :=
  match decodeRow Config.ppfMulti x with
  | .ok (.pktSpecial _ _) => true
  | _ => false

/-- What a packet needs to reach the Frame Assembler as the row its header names: reception armed, no resync
pending, and for a Special packet the four-segment geometry (log 3). -/
def State.readyFor (x : Stimulus) (s : State) : State :=
  match x with
  | .packet _ =>
    { s with
      armed := true, resyncing := false
      vRes := if isSpecialPattern x && !decide (s.packetsPerFrame = Config.ppfMulti) then 61#16 else s.vRes }
  | _ => s

/-- The state whose next step runs a table word. -/
def State.withTableWord (s : State) (nbits w : Nat) : State :=
  match tableStimulus nbits w with
  | none => s
  | some x => (s.readyFor x).present x

end Sys2Proof.Machine
end

