-- ==== Sys2Proof/Machine/Step.lean ====
section
/-! DEFINITION. One step of the machine: fetch and run. -/

namespace Sys2Proof.Machine

/-- One atomic step of one agent (00_scope.md R5). -/
def step (s : State) : Host.Outcome State Fault Refusal :=
  match fetch s with
  | .error e => .refused (.undecodable e)
  | .ok (i, t) => exec i t

/-- The state whose next step fetches and runs the instruction of a table word (log 3). -/
def State.withFetchWord (s : State) (nbits w : Nat) : State := s.withTableWord nbits w

end Sys2Proof.Machine
end

