-- ==== Sys2Proof/Safety.lean ====
section
/-! DEFINITION. What the claims speak of: the invariants of 10_state.md R37, the agent of a step (00_scope.md R5,
60_exceptions.md R172), and a run of many steps in any order. -/

namespace Sys2Proof.Machine

/-- The invariants I1 to I8 of 10_state.md R37, with the canonical form of the frame buffer and the constraints on
the parameters. I4 is I3's contrapositive. I8 is kept as what one state shows of it: every byte of the rows counted
so far has been written since hardware reset. -/
structure Invariants (s : State) : Prop where
  /-- I1. -/
  countInFrame : s.expectedPacketId ≤ s.packetsPerFrame
  /-- I2. -/
  segmentOfCount : s.expectedSegmentId.toNat = 1 + s.expectedPacketId.toNat / 60
  /-- I3. -/
  quietMeansRecovering : s.scState = .quiet → s.resyncing = true ∧ s.capturing = true ∧ s.armed = false
  /-- I5. -/
  resyncingMeansUnfinished : s.resyncing = true → s.expectedPacketId < s.packetsPerFrame
  /-- I6. -/
  capturingMeansUnfinished : s.capturing = true → s.expectedPacketId < s.packetsPerFrame
  /-- I7. -/
  quietCntBounded : s.quietCnt ≤ s.params.quietTicks
  /-- I8, the part of one state. -/
  countedRowsWritten : ∀ a, a < rowAddress s.nextRow → (s.fb.read a).isSome = true
  /-- The frame buffer's canonical form (20_memory.md R51). -/
  fbWf : s.fb.wf = true
  /-- 00_scope.md R7. -/
  paramsWf : s.params.wf = true

/-- Who takes a step (00_scope.md R5); the link and the receiver's units act as one producer. -/
inductive Agent where
  | producer
  | recovery
  | timebase
  | host
deriving DecidableEq, Repr

/-- The agent of each row; hardware reset is the host's or the platform's (44_host_interface.md R140). -/
def agentOf : Instr → Agent
  | .pktDiscard _ => .producer
  | .pktSpecial _ _ => .producer
  | .pktNormal _ _ _ => .producer
  | .pktOor _ _ _ => .producer
  | .cmdSetGeometry _ _ => .host
  | .cmdSetFormat _ => .host
  | .cmdCaptureStart => .host
  | .cmdReserved => .host
  | .stRead _ => .host
  | .fbRead _ => .host
  | .rxReceive _ => .producer
  | .rxDrop => .producer
  | .rxUnarmed => .producer
  | .scStart => .recovery
  | .scTick => .timebase
  | .scFinish => .recovery
  | .reset => .host

/-- The steps of any agents, one after another, stopping at the first that is no next state. -/
def execAll : List Instr → State → Result
  | [], s => .next s
  | i :: is, s =>
    match exec i s with
    | .next t => execAll is t
    | .fault r => .fault r
    | .refused r => .refused r

/-- `k` steps of the machine, stopping at the first that is no next state. -/
def runSteps : Nat → State → Result
  | 0, s => .next s
  | k + 1, s =>
    match step s with
    | .next t => runSteps k t
    | .fault r => .fault r
    | .refused r => .refused r

/-- Whether a row is the step of a RECEIVED packet, one delivered while reception is armed (41_receiver.md R101). -/
def isReception : Instr → Bool
  | .pktDiscard _ => true
  | .pktSpecial _ _ => true
  | .pktNormal _ _ _ => true
  | .pktOor _ _ _ => true
  | .cmdSetGeometry _ _ => false
  | .cmdSetFormat _ => false
  | .cmdCaptureStart => false
  | .cmdReserved => false
  | .stRead _ => false
  | .fbRead _ => false
  | .rxReceive _ => true
  | .rxDrop => true
  | .rxUnarmed => false
  | .scStart => false
  | .scTick => false
  | .scFinish => false
  | .reset => false

/-- The payload a reception carries to the Frame Assembler; `RX.DROP` looks at none (41_receiver.md R102). -/
def payloadOf : Instr → Option Payload
  | .pktDiscard payload => some payload
  | .pktSpecial _ payload => some payload
  | .pktNormal _ _ payload => some payload
  | .pktOor _ _ payload => some payload
  | .cmdSetGeometry _ _ => none
  | .cmdSetFormat _ => none
  | .cmdCaptureStart => none
  | .cmdReserved => none
  | .stRead _ => none
  | .fbRead _ => none
  | .rxReceive p => some p.payload
  | .rxDrop => none
  | .rxUnarmed => none
  | .scStart => none
  | .scTick => none
  | .scFinish => none
  | .reset => none

/-- In the run `is` from `s` to `t` one step is the accept of row `r`: it takes the counter from `r` to `r + 1` and
leaves the packet's payload in the row; the row still holds it in `t`, and after that step the counter is never 0 again
(10_state.md R37, I8: "later than the last write of 0"). -/
structure AcceptedSinceZero (is : List Instr) (s t : State) (r : Nat)
    (before : List Instr) (i : Instr) (after : List Instr) (u v : State) (payload : Payload) : Prop where
  split : is = before ++ i :: after
  runBefore : execAll before s = .next u
  accept : exec i u = .next v
  runAfter : execAll after v = .next t
  carries : payloadOf i = some payload
  counterBefore : u.expectedPacketId.toNat = r
  counterAfter : v.expectedPacketId.toNat = r + 1
  written : ∀ k, (hk : k < 160) → v.fb.read (160 * r + k) = some payload[k]
  kept : ∀ k, (hk : k < 160) → t.fb.read (160 * r + k) = some payload[k]
  neverZeroAgain : ∀ mid rest w, after = mid ++ rest → execAll mid v = .next w → r < w.expectedPacketId.toNat

/-- Whether a row takes the frame buffer away from the host, or may (10_state.md R39; 70_reset_and_hazards.md R180). -/
def takesFrameBack : Instr → Bool
  | .pktDiscard _ => false
  | .pktSpecial _ _ => false
  | .pktNormal _ _ _ => false
  | .pktOor _ _ _ => false
  | .cmdSetGeometry _ _ => true
  | .cmdSetFormat _ => false
  | .cmdCaptureStart => true
  | .cmdReserved => false
  | .stRead _ => false
  | .fbRead _ => false
  | .rxReceive _ => false
  | .rxDrop => false
  | .rxUnarmed => false
  | .scStart => false
  | .scTick => false
  | .scFinish => false
  | .reset => true

/-- The ten stored variables of 10_state.md R20 and the frame buffer are the same in two states. -/
structure SameCore (s t : State) : Prop where
  hRes : t.hRes = s.hRes
  vRes : t.vRes = s.vRes
  fmtSel : t.fmtSel = s.fmtSel
  resyncing : t.resyncing = s.resyncing
  expectedPacketId : t.expectedPacketId = s.expectedPacketId
  expectedSegmentId : t.expectedSegmentId = s.expectedSegmentId
  armed : t.armed = s.armed
  capturing : t.capturing = s.capturing
  scState : t.scState = s.scState
  quietCnt : t.quietCnt = s.quietCnt
  fb : t.fb = s.fb

end Sys2Proof.Machine
end

