-- ==== Sys2Proof/Certificates/Slice0/Obligations.lean ====
section
/-! DEFINITION. The statements for the provers. Each says which rule of spec/ it formalises. An output record is
written out as ⟨pkt_evt, rsp, st_data, frame-buffer data⟩. -/

open Sys2Proof Sys2Proof.Machine

/-! ## Reset -/

/-- 10_state.md R38: the state right after hardware reset. No byte of the frame buffer is known. -/
def Obligations.ResetStateFollowsItsTable : Prop :=
  State.reset.hRes = 0#16 ∧ State.reset.vRes = 0#16 ∧ State.reset.fmtSel = false ∧ State.reset.resyncing = true ∧
    State.reset.expectedPacketId = 0#8 ∧ State.reset.expectedSegmentId = 1#3 ∧ State.reset.armed = false ∧
    State.reset.capturing = false ∧ State.reset.scState = .idle ∧ State.reset.quietCnt = 0 ∧
    (∀ a, State.reset.fb.read a = none) ∧
    (∀ i a, State.reset.portByte i a = Config.freeByte State.reset.fbPowerUp none a) ∧
    State.reset.packetsPerFrame = 60#8 ∧ State.reset.faState = .resyncing

/-- 70_reset_and_hazards.md R180: RESET completes in every state, puts every variable to the reset table, makes the
frame buffer unspecified even where it was written, and answers nothing. -/
def Obligations.HardwareResetCompletesInEveryState : Prop :=
  ∀ s : State, ∃ t, exec .reset s = .next t ∧
    t.hRes = 0#16 ∧ t.vRes = 0#16 ∧ t.fmtSel = false ∧ t.resyncing = true ∧ t.expectedPacketId = 0#8 ∧
    t.expectedSegmentId = 1#3 ∧ t.armed = false ∧ t.capturing = false ∧ t.scState = .idle ∧ t.quietCnt = 0 ∧
    (∀ a, t.fb.read a = none) ∧ (∀ i a, t.portByte i a = Config.freeByte t.fbPowerUp none a) ∧
    t.out = ⟨false, none, none, none⟩

/-- 70_reset_and_hazards.md R181: what the reset state is in words, and that a core which is unarmed, idle, not
capturing and resyncing stays so and pulses nothing until an accepted capture start. -/
def Obligations.ResetCoreWaitsForACapture : Prop :=
  (State.reset.faState = .resyncing ∧ State.reset.rxEnable = false ∧ State.reset.scState = .idle ∧
    State.reset.recoveryCanStart = false ∧ State.reset.frameComplete = false ∧
    State.reset.packetsPerFrame = 60#8) ∧
  ∀ (i : Instr) (s t : State),
    s.resyncing = true → s.armed = false → s.capturing = false → s.scState = .idle → exec i s = .next t →
    (t.resyncing = true ∧ t.armed = false ∧ t.capturing = false ∧ t.scState = .idle ∧ t.out.pktEvt = false) ∨
      (i = .cmdCaptureStart ∧ s.configured = true)

/-! ## Derived values -/

/-- 10_state.md R23: `packets_per_frame` is 240 above 60 rows and 60 otherwise, of every 16-bit `v_res`. -/
def Obligations.PacketsPerFrameFollowsTheRows : Prop :=
  ∀ s : State, (60 < s.vRes.toNat → s.packetsPerFrame.toNat = 240) ∧
    (s.vRes.toNat ≤ 60 → s.packetsPerFrame.toNat = 60)

/-- 10_state.md R32: `fa_state` in its priority order, its codes, and `frame_complete`. -/
def Obligations.AssemblerStateFollowsItsPriority : Prop :=
  (∀ s : State,
    (s.resyncing = true → s.faState = .resyncing) ∧
    (s.resyncing = false → s.expectedPacketId = s.packetsPerFrame → s.faState = .complete) ∧
    (s.resyncing = false → s.expectedPacketId ≠ s.packetsPerFrame → s.expectedPacketId = 0#8 →
      s.faState = .hunting) ∧
    (s.resyncing = false → s.expectedPacketId ≠ s.packetsPerFrame → s.expectedPacketId ≠ 0#8 →
      s.faState = .filling) ∧
    (s.frameComplete = true ↔ s.faState = .complete)) ∧
  FaState.hunting.code = 0#2 ∧ FaState.filling.code = 1#2 ∧ FaState.complete.code = 2#2 ∧
    FaState.resyncing.code = 3#2

/-! ## The packet codec and the decoder -/

/-- 30_encoding.md R72, R73, R74: the header fields as numbers, and the two readings of the discard test. -/
def Obligations.HeaderFieldsAreTheBytesBits : Prop :=
  ∀ b0 b1 : Byte,
    (packetId b0 b1).toNat = (b0.toNat % 16) * 256 + b1.toNat ∧
    (segmentId b0).toNat = (b0.toNat / 16) % 8 ∧
    (isDiscard b0 = true ↔ b0.toNat % 16 = 15) ∧
    (isDiscard b0 = true ↔ 0xF00 ≤ (packetId b0 b1).toNat)

/-- 40_packet_codec.md R90: `classify`, each class by its exact condition on the header bytes and the geometry. -/
def Obligations.ClassifierFollowsItsFourTests : Prop :=
  ∀ (b0 b1 b2 b3 : Byte) (ppf : BitVec 8),
    (classify b0 b1 b2 b3 ppf = .discard ↔ b0.toNat % 16 = 15) ∧
    (∀ seg, classify b0 b1 b2 b3 ppf = .special seg ↔
      b0.toNat % 16 = 0 ∧ b1.toNat = 20 ∧ ppf.toNat = 240 ∧ seg.toNat = (b0.toNat / 16) % 8) ∧
    (∀ pid seg, classify b0 b1 b2 b3 ppf = .normal pid seg ↔
      b0.toNat % 16 = 0 ∧ b1.toNat ≤ 59 ∧ ¬(b1.toNat = 20 ∧ ppf.toNat = 240) ∧ pid.toNat = b1.toNat ∧
        seg.toNat = (b0.toNat / 16) % 8) ∧
    (∀ pid seg, classify b0 b1 b2 b3 ppf = .oor pid seg ↔
      b0.toNat % 16 ≠ 15 ∧ 60 ≤ (b0.toNat % 16) * 256 + b1.toNat ∧
        pid.toNat = (b0.toNat % 16) * 256 + b1.toNat ∧ seg.toNat = (b0.toNat / 16) % 8)

/-- 30_encoding.md R80: the four command codes and their argument fields. -/
def Obligations.CommandCodesDecodeAsTabled : Prop :=
  ∀ (armed : Bool) (arg : BitVec 32),
    (∃ h v, decode armed (.command 0#2 arg) = .ok (.cmdSetGeometry h v) ∧ h.toNat = arg.toNat % 65536 ∧
      v.toNat = arg.toNat / 65536) ∧
    (∃ b, decode armed (.command 1#2 arg) = .ok (.cmdSetFormat b) ∧ (b = true ↔ arg.toNat % 2 = 1)) ∧
    decode armed (.command 2#2 arg) = .ok .cmdCaptureStart ∧
    decode armed (.command 3#2 arg) = .ok .cmdReserved

/-- 95_test_vectors.md V1 and V5, and the examples of 40_packet_codec.md: words written out from the spec decode to
the rows they stand for (the command's word has `cmd_op` in its low bits, log 10). -/
def Obligations.KnownWordsDecodeToTheirRows : Prop :=
  decodeTableWord 32 0x0F123400 = some (.pktDiscard (Vector.replicate 160 0#8)) ∧
  decodeTableWord 32 0x3014ABCD = some (.pktSpecial 3#3 (Vector.replicate 160 0#8)) ∧
  decodeTableWord 32 0xA005ABCD = some (.pktNormal 5#12 2#3 (Vector.replicate 160 0#8)) ∧
  decodeTableWord 32 0x0EFF0000 = some (.pktOor 3839#12 0#3 (Vector.replicate 160 0#8)) ∧
  decodeTableWord 8 2 = some .cmdCaptureStart ∧
  decode false (.command 0#2 0x003C0050#32) = .ok (.cmdSetGeometry 80#16 60#16) ∧
  decode true (.statusRead 10#4) = .ok (.stRead 10#4) ∧ decode true .tick = .ok .scTick

/-- Decoding the encoding of a well-formed instruction gives it back, at every operand value: a `PKT` row in every
geometry that has its class, `RX.RECEIVE` with all 164 bytes, every command, port and event. `RX.DROP` and
`RX.UNARMED` have no encoding of their own (30_encoding.md R83). Whatever is no packet decodes back by the decoder of
the step too, armed or not. -/
def Obligations.EncodedInstructionDecodesBack : Prop :=
  ∀ (i : Instr) (x : Stimulus), i.wf = true → encode i = some x →
    (∀ p, i = .rxReceive p → decode true x = .ok i) ∧
    ((∀ p, i ≠ .rxReceive p) →
      (∀ ppf : BitVec 8, (∀ c pl, i = PacketClass.toInstr pl c → c.fits ppf = true) → decodeRow ppf x = .ok i)) ∧
    ((∀ bytes, x ≠ .packet bytes) → ∀ armed, decode armed x = .ok i)

/-- What the decoder gives is well-formed, and a `PKT` row it gives is one the geometry has. -/
def Obligations.DecodedInstructionIsWellFormed : Prop :=
  ∀ (armed : Bool) (ppf : BitVec 8) (x : Stimulus) (i : Instr),
    (decode armed x = .ok i → i.wf = true) ∧
    (decodeRow ppf x = .ok i → i.wf = true ∧ ∀ c pl, i = PacketClass.toInstr pl c → c.fits ppf = true)

/-- The decoder stops by name on a link unit that is not 164 bytes long and on a sample index above 19199, and on
nothing else (log 20). -/
def Obligations.DecoderRejectsOnlyWhatDoesNotExist : Prop :=
  ∀ (armed : Bool) (x : Stimulus) (e : DecodeReject), decode armed x = .error e ↔
    (∃ bytes, x = .packet bytes ∧ bytes.length ≠ 164 ∧ e = .badPacketLength bytes.length) ∨
    (∃ i, x = .frameRead i ∧ 19200 ≤ i.toNat ∧ e = .noSuchSample i.toNat)

/-! ## The step -/

/-- The next scheduled stimulus is decoded and its row is what the step runs; a stimulus the decoder rejects stops the
step by name. The schedule is the model's own (log 1). -/
def Obligations.StepRunsTheDecodedInstruction : Prop :=
  ∀ (s : State) (x : Stimulus) (rest : List Stimulus), s.schedule = x :: rest →
    (∀ i, decode s.armed x = .ok i → step s = exec i { s with schedule := rest }) ∧
    (∀ e, decode s.armed x = .error e → step s = .refused (.undecodable e))

/-- With nothing scheduled an enabled recovery step fires, else the timebase ticks. This order is the model's choice
(log 2); the spec allows every order (70_reset_and_hazards.md R195). -/
def Obligations.UnscheduledStepIsRecoveryOrTick : Prop :=
  ∀ s : State, s.schedule = [] →
    (s.recoveryCanStart = true → step s = exec .scStart s) ∧
    (s.recoveryCanStart = false → s.recoveryCanFinish = true → step s = exec .scFinish s) ∧
    (s.recoveryCanStart = false → s.recoveryCanFinish = false → step s = exec .scTick s)

/-- Every step leaves the parameters alone and consumes at most the stimulus it ran: these fields are the model's own
(log 1, log 5). -/
def Obligations.StepKeepsParametersAndConsumesOneStimulus : Prop :=
  ∀ s t : State, step s = .next t → t.params = s.params ∧ t.schedule = s.schedule.tail

/-! ## Packets -/

/-- 41_receiver.md R101, R103: a received packet pulses `pkt_evt`; with a resync pending it is dropped, otherwise the
step is that of its `PKT` row in the geometry before the step. That a `PKT` row has a step by itself is the model's choice
(log 9), and so is the refusal of the step that does not exist with reception stopped (00_scope.md R10, log 4). -/
def Obligations.ReceivedPacketRunsItsRow : Prop :=
  ∀ (p : Packet) (s : State),
    (s.armed = true → s.resyncing = true → exec (.rxReceive p) s = exec .rxDrop s) ∧
    (s.armed = true → s.resyncing = false → exec (.rxReceive p) s = exec (p.toRow s.packetsPerFrame) s) ∧
    (s.armed = false → exec (.rxReceive p) s = .refused (.notEnabled "RX.RECEIVE")) ∧
    (∀ t, exec (.rxReceive p) s = .next t → t.out = ⟨true, none, none, none⟩) ∧
    s.rxEnable = s.armed

/-- Every packet received in a state that meets the invariants is handled to the end in its one step (41_receiver.md
R105), pulses `pkt_evt`, and writes no configuration, `armed`, `sc_state` or `quiet_cnt`. -/
def Obligations.EveryReceivedPacketCompletes : Prop :=
  ∀ (p : Packet) (s : State), Invariants s → s.armed = true →
    ∃ t, exec (.rxReceive p) s = .next t ∧ t.out = ⟨true, none, none, none⟩ ∧
      t = { s with
        resyncing := t.resyncing, expectedPacketId := t.expectedPacketId,
        expectedSegmentId := t.expectedSegmentId, capturing := t.capturing, fb := t.fb, out := t.out }

/-- 41_receiver.md R102: a packet received while `resyncing = 1` is dropped whatever it holds. -/
def Obligations.DroppedPacketChangesNothing : Prop :=
  ∀ s : State, s.armed = true → s.resyncing = true →
    exec .rxDrop s = .next { s with out := ⟨true, none, none, none⟩ } ∧
    ∀ p, exec (.rxReceive p) s = .next { s with out := ⟨true, none, none, none⟩ }

/-- 41_receiver.md R104: a packet presented while reception is stopped is not received and pulses nothing; a step that
is offered one completes so. -/
def Obligations.UnarmedPacketIsNotReceived : Prop :=
  ∀ s : State, s.armed = false →
    exec .rxUnarmed s = .next { s with out := ⟨false, none, none, none⟩ } ∧
    ∀ (p : Packet) (rest : List Stimulus), s.schedule = .packet p.bytes :: rest →
      step s = .next { s with schedule := rest, out := ⟨false, none, none, none⟩ }

/-- 00_scope.md R10, 30_encoding.md R77, R83: a packet row whose guard is false does not exist, so the model stops it by
its own mnemonic (log 4, log 9); the row `RX.RECEIVE` runs in a geometry always fits it. -/
def Obligations.PacketRowOutsideItsGuardIsAbsent : Prop :=
  (∀ (payload : Payload) (s : State), s.armed = false ∨ s.resyncing = true →
    exec (.pktDiscard payload) s = .refused (.notEnabled "PKT.DISCARD")) ∧
  (∀ (seg : BitVec 3) (payload : Payload) (s : State),
    s.armed = false ∨ s.resyncing = true ∨ s.packetsPerFrame ≠ 240#8 →
    exec (.pktSpecial seg payload) s = .refused (.notEnabled "PKT.SPECIAL")) ∧
  (∀ (pid : BitVec 12) (seg : BitVec 3) (payload : Payload) (s : State),
    s.armed = false ∨ s.resyncing = true ∨ 60 ≤ pid.toNat ∨ (pid.toNat = 20 ∧ s.packetsPerFrame = 240#8) →
    exec (.pktNormal pid seg payload) s = .refused (.notEnabled "PKT.NORMAL")) ∧
  (∀ (pid : BitVec 12) (seg : BitVec 3) (payload : Payload) (s : State),
    s.armed = false ∨ s.resyncing = true ∨ pid.toNat ≤ 59 ∨ 3840 ≤ pid.toNat →
    exec (.pktOor pid seg payload) s = .refused (.notEnabled "PKT.OOR")) ∧
  (∀ s : State, s.armed = false ∨ s.resyncing = false → exec .rxDrop s = .refused (.notEnabled "RX.DROP")) ∧
  (∀ s : State, s.armed = true → exec .rxUnarmed s = .refused (.notEnabled "RX.UNARMED")) ∧
  ∀ (p : Packet) (ppf : BitVec 8), (p.classOf ppf).fits ppf = true

/-- 42_frame_assembler.md R112: a discard packet changes nothing in any state. -/
def Obligations.DiscardPacketChangesNothing : Prop :=
  ∀ (payload : Payload) (s : State), s.armed = true → s.resyncing = false →
    exec (.pktDiscard payload) s = .next { s with out := ⟨true, none, none, none⟩ }

/-- 42_frame_assembler.md R113: in COMPLETE a packet of any class changes nothing. -/
def Obligations.CompleteFrameIgnoresPackets : Prop :=
  ∀ (c : PacketClass) (payload : Payload) (s : State), s.armed = true → s.faState = .complete →
    c.fits s.packetsPerFrame = true →
    exec (c.toInstr payload) s = .next { s with out := ⟨true, none, none, none⟩ }

/-- 42_frame_assembler.md R117: in Hunting a non-discard packet of another id than 0 writes the counters' start
values and nothing else; where the invariant I2 holds they have these values, and nothing changes at all. -/
def Obligations.HuntingIgnoresOtherIds : Prop :=
  ∀ (c : PacketClass) (pid : BitVec 12) (seg : BitVec 3) (payload : Payload) (s : State),
    s.armed = true → s.resyncing = false → s.expectedPacketId = 0#8 → c.fits s.packetsPerFrame = true →
    fieldsOf c = some (pid, seg) → pid ≠ 0#12 →
    exec (c.toInstr payload) s = .next
      { s with expectedPacketId := 0#8, expectedSegmentId := 1#3, out := ⟨true, none, none, none⟩ } ∧
    (Invariants s → exec (c.toInstr payload) s = .next { s with out := ⟨true, none, none, none⟩ })

/-- 42_frame_assembler.md R118: an id mismatch outside Hunting raises SyncLost and does nothing else. -/
def Obligations.MismatchOutsideHuntingLosesSync : Prop :=
  ∀ (c : PacketClass) (pid : BitVec 12) (seg : BitVec 3) (payload : Payload) (s : State),
    s.armed = true → s.resyncing = false → 0 < s.expectedPacketId.toNat →
    s.expectedPacketId.toNat < s.packetsPerFrame.toNat → c.fits s.packetsPerFrame = true →
    fieldsOf c = some (pid, seg) → pid.toNat ≠ s.expectedPacketId.toNat % 60 →
    exec (c.toInstr payload) s = .next { s with resyncing := true, out := ⟨true, none, none, none⟩ }

/-- 42_frame_assembler.md R119: a special packet of another segment than 1 in the first segment takes the assembler
back to Hunting. -/
def Obligations.WrongFirstSegmentReturnsToHunting : Prop :=
  ∀ (seg : BitVec 3) (payload : Payload) (s : State), Invariants s → s.armed = true → s.resyncing = false →
    s.packetsPerFrame = 240#8 → s.expectedPacketId = 20#8 → seg ≠ 1#3 →
    ∃ t, exec (.pktSpecial seg payload) s = .next t ∧ t.faState = .hunting ∧
      t = { s with expectedPacketId := 0#8, expectedSegmentId := 1#3, out := ⟨true, none, none, none⟩ }

/-- 42_frame_assembler.md R120: a special packet of the wrong segment in a later segment raises SyncLost and does
nothing else. -/
def Obligations.WrongLaterSegmentLosesSync : Prop :=
  ∀ (seg : BitVec 3) (payload : Payload) (s : State), Invariants s → s.armed = true → s.resyncing = false →
    s.packetsPerFrame = 240#8 → s.expectedPacketId.toNat ∈ [80, 140, 200] → seg ≠ s.expectedSegmentId →
    exec (.pktSpecial seg payload) s = .next { s with resyncing := true, out := ⟨true, none, none, none⟩ }

/-- 42_frame_assembler.md R116: an out-of-range packet below COMPLETE is always a mismatch and never accepted. -/
def Obligations.OutOfRangePacketIsAlwaysAMismatch : Prop :=
  ∀ (pid : BitVec 12) (seg : BitVec 3) (payload : Payload) (s : State),
    (Instr.pktOor pid seg payload).wf = true → s.armed = true → s.resyncing = false →
    s.expectedPacketId.toNat < s.packetsPerFrame.toNat →
    (s.expectedPacketId = 0#8 →
      exec (.pktOor pid seg payload) s = .next
        { s with expectedPacketId := 0#8, expectedSegmentId := 1#3, out := ⟨true, none, none, none⟩ }) ∧
    (s.expectedPacketId ≠ 0#8 →
      exec (.pktOor pid seg payload) s = .next { s with resyncing := true, out := ⟨true, none, none, none⟩ })

/-- 42_frame_assembler.md R121, 20_memory.md R54: a matching packet, normal or special with the expected segment, is
written to the row of the counter and advances the counters; every other byte and every other variable stays. -/
def Obligations.MatchingPacketIsAccepted : Prop :=
  ∀ (c : PacketClass) (pid : BitVec 12) (seg : BitVec 3) (payload : Payload) (s : State),
    s.armed = true → s.resyncing = false → s.expectedPacketId.toNat < s.packetsPerFrame.toNat →
    c.fits s.packetsPerFrame = true → fieldsOf c = some (pid, seg) →
    pid.toNat = s.expectedPacketId.toNat % 60 → (c = .special seg → seg = s.expectedSegmentId) →
    ∃ t, exec (c.toInstr payload) s = .next t ∧
      (∀ k, (hk : k < 160) → t.fb.read (160 * s.expectedPacketId.toNat + k) = some payload[k]) ∧
      (∀ a, a < 160 * s.expectedPacketId.toNat ∨ 160 * s.expectedPacketId.toNat + 160 ≤ a →
        t.fb.read a = s.fb.read a) ∧
      t.expectedPacketId.toNat = s.expectedPacketId.toNat + 1 ∧
      t.expectedSegmentId =
        (if (s.expectedPacketId.toNat + 1) % 60 = 0 then s.expectedSegmentId + 1#3 else s.expectedSegmentId) ∧
      t.capturing =
        (if s.expectedPacketId.toNat + 1 = s.packetsPerFrame.toNat then false else s.capturing) ∧
      t = { s with
        fb := t.fb, expectedPacketId := t.expectedPacketId, expectedSegmentId := t.expectedSegmentId,
        capturing := t.capturing, out := ⟨true, none, none, none⟩ }

/-- 42_frame_assembler.md R122: nothing but the accept step of the last row makes `fa_state` COMPLETE; that step
clears `capturing`. -/
def Obligations.OnlyTheLastAcceptCompletesAFrame : Prop :=
  ∀ (i : Instr) (s t : State), exec i s = .next t → s.faState ≠ .complete → t.faState = .complete →
    agentOf i = .producer ∧ s.armed = true ∧ s.resyncing = false ∧
      s.expectedPacketId.toNat + 1 = s.packetsPerFrame.toNat ∧ t.expectedPacketId = t.packetsPerFrame ∧
      t.capturing = false ∧ t.frameComplete = true ∧
      ∀ k, k < 160 → (t.fb.read (160 * s.expectedPacketId.toNat + k)).isSome = true

/-- 95_test_vectors.md S1 and S8, 42_frame_assembler.md R122: from Hunting, `n` packets in the expected order are all
accepted; the frame buffer holds their payloads in that order, and the frame is COMPLETE exactly when `n` is
`packets_per_frame`, never earlier. -/
def Obligations.OrderedStreamFillsTheFrame : Prop :=
  ∀ (s : State) (n : Nat) (p : Nat → Packet), Invariants s → s.armed = true → s.faState = .hunting →
    n ≤ s.packetsPerFrame.toNat →
    (∀ k, k < n → (packetId (p k).b0 (p k).b1).toNat = k % 60 ∧
      (s.packetsPerFrame = 240#8 → k % 60 = 20 → (segmentId (p k).b0).toNat = 1 + k / 60)) →
    ∃ t, execAll ((List.range n).map fun k => .rxReceive (p k)) s = .next t ∧
      t.expectedPacketId.toNat = n ∧ t.resyncing = false ∧
      (t.faState = .complete ↔ n = s.packetsPerFrame.toNat) ∧
      (n = s.packetsPerFrame.toNat → t.capturing = false) ∧
      ∀ k j, k < n → (hj : j < 160) → t.fb.read (160 * k + j) = some (p k).payload[j]

/-- 30_encoding.md R75: no value of the checksum bytes changes any step; nor does bit 7 of byte 0 (R78). -/
def Obligations.IgnoredHeaderBitsChangeNoStep : Prop :=
  ∀ (s : State) (rest : List Stimulus) (p q : Packet), p.b1 = q.b1 → p.payload = q.payload →
    p.b0.toNat % 128 = q.b0.toNat % 128 →
    step { s with schedule := .packet p.bytes :: rest } = step { s with schedule := .packet q.bytes :: rest }

/-- 42_frame_assembler.md R124: the segment field is read of a Special packet only; in the single-segment geometry of
none. -/
def Obligations.SegmentFieldIsReadOfSpecialPacketsOnly : Prop :=
  ∀ (s : State) (p q : Packet), p.b1 = q.b1 → p.payload = q.payload → p.b0.toNat % 16 = q.b0.toNat % 16 →
    (s.packetsPerFrame = 60#8 ∨ packetId p.b0 p.b1 ≠ 20#12) →
    exec (.rxReceive p) s = exec (.rxReceive q) s

/-! ## SyncLost and recovery -/

/-- 60_exceptions.md R162: a packet raises SyncLost in exactly two situations. -/
def Obligations.SyncLostHasExactlyTwoCauses : Prop :=
  ∀ (c : PacketClass) (payload : Payload) (s : State), Invariants s → s.armed = true → s.resyncing = false →
    c.fits s.packetsPerFrame = true →
    ((∃ t, exec (c.toInstr payload) s = .next t ∧ t.resyncing = true) ↔
      (∃ pid seg, fieldsOf c = some (pid, seg) ∧ 0 < s.expectedPacketId.toNat ∧
        s.expectedPacketId.toNat < s.packetsPerFrame.toNat ∧ pid.toNat ≠ s.expectedPacketId.toNat % 60) ∨
      (∃ seg, c = .special seg ∧ s.packetsPerFrame = 240#8 ∧ s.expectedPacketId.toNat % 60 = 20 ∧
        seg ≠ s.expectedSegmentId ∧ s.expectedSegmentId ≠ 1#3))

/-- 43_sync_controller.md R132: `SC.START` stops reception and begins the quiet count when its guard holds, and does
not exist otherwise. -/
def Obligations.RecoveryStartStopsReception : Prop :=
  ∀ s : State,
    (s.resyncing = true → s.capturing = true → s.scState = .idle →
      exec .scStart s = .next
        { s with armed := false, quietCnt := 0, scState := .quiet, out := ⟨false, none, none, none⟩ }) ∧
    (¬(s.resyncing = true ∧ s.capturing = true ∧ s.scState = .idle) →
      exec .scStart s = .refused (.notEnabled "SC.START"))

/-- 43_sync_controller.md R133: a tick counts in `SC_QUIET` below `QUIET_TICKS` and does nothing otherwise. -/
def Obligations.TickCountsTheQuietInterval : Prop :=
  ∀ s : State,
    (s.scState = .quiet → s.quietCnt < s.params.quietTicks →
      exec .scTick s = .next { s with quietCnt := s.quietCnt + 1, out := ⟨false, none, none, none⟩ }) ∧
    (¬(s.scState = .quiet ∧ s.quietCnt < s.params.quietTicks) →
      exec .scTick s = .next { s with out := ⟨false, none, none, none⟩ })

/-- 43_sync_controller.md R134: `SC.FINISH` resets SyncState, re-arms reception and leaves the assembler Hunting when
its guard holds, and does not exist otherwise. -/
def Obligations.RecoveryFinishRestartsReception : Prop :=
  ∀ s : State,
    (s.scState = .quiet → s.quietCnt = s.params.quietTicks →
      ∃ t, exec .scFinish s = .next t ∧ t.faState = .hunting ∧
        t = { s with
          resyncing := false, expectedPacketId := 0#8, expectedSegmentId := 1#3, armed := true,
          scState := .idle, out := ⟨false, none, none, none⟩ }) ∧
    (¬(s.scState = .quiet ∧ s.quietCnt = s.params.quietTicks) →
      exec .scFinish s = .refused (.notEnabled "SC.FINISH"))

/-- 43_sync_controller.md R132, R134: the guard of `SC.START`, and that of `SC.FINISH`, once it holds, stays true until
that step fires or hardware reset comes, whatever the other agents do. -/
def Obligations.EnabledRecoveryStaysEnabled : Prop :=
  ∀ (i : Instr) (s t : State), exec i s = .next t →
    (s.recoveryCanStart = true → t.recoveryCanStart = true ∨ i = .scStart ∨ i = .reset) ∧
    (s.recoveryCanFinish = true → t.recoveryCanFinish = true ∨ i = .scFinish ∨ i = .reset)

/-- 43_sync_controller.md R137: in the quiet interval a presented packet is not received: nothing changes and nothing
is pulsed. That the model refuses a reception there is log 4. -/
def Obligations.NoPacketIsReceivedInTheQuietInterval : Prop :=
  ∀ (s : State) (p : Packet) (rest : List Stimulus), Invariants s → s.scState = .quiet →
    s.schedule = .packet p.bytes :: rest →
    step s = .next { s with schedule := rest, out := ⟨false, none, none, none⟩ } ∧
    exec (.rxReceive p) s = .refused (.notEnabled "RX.RECEIVE")

/-- 43_sync_controller.md R135, 70_reset_and_hazards.md R191: however the agents interleave, hardware resets included,
a core whose reception is stopped is not re-armed before the ticks its quiet count still lacks have come; so with
parameters as 00_scope.md R7 asks, a whole quiet interval lasts at least `QUIET_MIN` (ticks as time: log 18). In
`SC_IDLE` the count may hold any old value (10_state.md R29). -/
def Obligations.RecoveryNeverFinishesEarly : Prop :=
  ∀ (is : List Instr) (s t : State), s.armed = false → execAll is s = .next t → t.armed = true →
    (s.scState = .quiet → s.params.quietTicks - s.quietCnt ≤ is.count .scTick) ∧
    (s.scState = .idle → s.params.quietTicks ≤ is.count .scTick) ∧
    (s.params.wf = true → (s.scState = .quiet → s.quietCnt = 0) →
      s.params.quietMin ≤ (is.count .scTick - 1) * s.params.tTick)

/-- 60_exceptions.md R164, 70_reset_and_hazards.md R195: with nothing else happening a pending recovery runs to its
end: after `SC.START`, `QUIET_TICKS` ticks and `SC.FINISH` reception is armed, the assembler Hunting, the capture
still outstanding, the frame buffer untouched. That the steps come in this order with nothing scheduled is the model's
choice (log 2). -/
def Obligations.PendingRecoveryRunsToItsEnd : Prop :=
  ∀ s : State, s.schedule = [] → s.recoveryCanStart = true →
    ∃ t, runSteps (s.params.quietTicks + 2) s = .next t ∧ t.armed = true ∧ t.faState = .hunting ∧
      t.expectedPacketId = 0#8 ∧ t.expectedSegmentId = 1#3 ∧ t.capturing = true ∧ t.scState = .idle ∧
      t.fb = s.fb ∧ t.hRes = s.hRes ∧ t.vRes = s.vRes ∧ t.fmtSel = s.fmtSel

/-! ## The host -/

/-- 44_host_interface.md R141: SET_GEOMETRY outside a capture writes the resolution and restarts the counters; during
one it answers Busy and changes nothing. -/
def Obligations.SetGeometryWritesTheResolution : Prop :=
  ∀ (h v : BitVec 16) (s : State),
    (s.capturing = false → exec (.cmdSetGeometry h v) s = .next
      { s with
        hRes := h, vRes := v, expectedPacketId := 0#8, expectedSegmentId := 1#3,
        out := ⟨false, some .ok, none, none⟩ }) ∧
    (s.capturing = true → exec (.cmdSetGeometry h v) s = .next { s with out := ⟨false, some .busy, none, none⟩ })

/-- 44_host_interface.md R142: SET_FORMAT is accepted in every state. -/
def Obligations.SetFormatWritesTheFlag : Prop :=
  ∀ (b : Bool) (s : State),
    exec (.cmdSetFormat b) s = .next { s with fmtSel := b, out := ⟨false, some .ok, none, none⟩ }

/-- 44_host_interface.md R143, R152: CAPTURE_START, its three outcomes in their order, for both values of
`CAPTURE_FORCES_RESYNC`. -/
def Obligations.CaptureStartBeginsACapture : Prop :=
  ∀ s : State,
    (s.hRes = 0#16 ∨ s.vRes = 0#16 ∨ s.fmtSel = false →
      exec .cmdCaptureStart s = .next { s with out := ⟨false, some .notConfigured, none, none⟩ }) ∧
    (s.hRes ≠ 0#16 → s.vRes ≠ 0#16 → s.fmtSel = true → s.capturing = true →
      exec .cmdCaptureStart s = .next { s with out := ⟨false, some .busy, none, none⟩ }) ∧
    (s.hRes ≠ 0#16 → s.vRes ≠ 0#16 → s.fmtSel = true → s.capturing = false →
      exec .cmdCaptureStart s = .next
        { s with
          expectedPacketId := 0#8, expectedSegmentId := 1#3, capturing := true,
          resyncing := (if s.params.captureForcesResync then true else s.resyncing),
          out := ⟨false, some .ok, none, none⟩ })

/-- 44_host_interface.md R144: the reserved command answers IllegalCommand and changes nothing. -/
def Obligations.ReservedCommandIsIllegal : Prop :=
  ∀ s : State, exec .cmdReserved s = .next { s with out := ⟨false, some .illegalCommand, none, none⟩ }

/-- 30_encoding.md R81: the response codes; a command answered with another code than OK changes no state. -/
def Obligations.RejectedCommandChangesNothing : Prop :=
  (Response.ok.code = 0#2 ∧ Response.notConfigured.code = 1#2 ∧ Response.busy.code = 2#2 ∧
    Response.illegalCommand.code = 3#2) ∧
  ∀ (i : Instr) (s t : State) (r : Response), exec i s = .next t → t.out.rsp = some r → r ≠ .ok →
    t = { s with out := ⟨false, some r, none, none⟩ }

/-- 10_state.md R33, R20: the status port shows the variable of the select number, zero-extended; 12 to 15 read 0; no
state changes. Of a `quiet_cnt` that does not fit the port the rule gives no result, and the statement says none. -/
def Obligations.StatusReadShowsTheSelectedVariable : Prop :=
  ∀ (sel : BitVec 4) (s : State),
    ∃ v, exec (.stRead sel) s = .next { s with out := ⟨false, none, some v, none⟩ } ∧
      ((sel = 9#4 → s.quietCnt < 65536) → v.toNat = ([s.hRes.toNat, s.vRes.toNat, s.fmtSel.toNat, s.resyncing.toNat, s.expectedPacketId.toNat,
        s.expectedSegmentId.toNat, s.armed.toNat, s.capturing.toNat, s.scState.code.toNat, s.quietCnt,
        s.packetsPerFrame.toNat, s.faState.code.toNat, 0, 0, 0, 0].getD sel.toNat 0))

/-- 20_memory.md R52, R55: in COMPLETE the port returns the big-endian sample that was written, and changes no state. -/
def Obligations.CompleteFrameReadsBack : Prop :=
  ∀ (i : BitVec 15) (s : State), Invariants s → s.faState = .complete → i.toNat < 80 * s.packetsPerFrame.toNat →
    ∃ hi lo, s.fb.read (2 * i.toNat) = some hi ∧ s.fb.read (2 * i.toNat + 1) = some lo ∧
      exec (.fbRead i) s = .next { s with out := ⟨false, none, none, some (hi ++ lo)⟩ }

/-- 20_memory.md R55: a frame-buffer read of an existing sample completes in every state with no effect but its data,
the same data when repeated; a sample above 19199 does not exist, and the model refuses it (log 20). -/
def Obligations.FrameReadHasNoSideEffect : Prop :=
  ∀ (i : BitVec 15) (s : State),
    (i.toNat < 19200 → ∃ v t, t = { s with out := ⟨false, none, none, some v⟩ } ∧
      exec (.fbRead i) s = .next t ∧ exec (.fbRead i) t = .next t) ∧
    (19200 ≤ i.toNat → exec (.fbRead i) s = .refused (.noSuchSample i.toNat))

/-! ## Whole-machine rules -/

/-- The invariants of 10_state.md R37 hold after reset. -/
def Obligations.ResetStateMeetsTheInvariants : Prop := Invariants State.reset

/-- 10_state.md R37: every step of every agent keeps the invariants I1 to I7 and what one state shows of I8, together with
the frame buffer's canonical form and the parameters' constraints. -/
def Obligations.EveryStepKeepsTheInvariants : Prop :=
  ∀ s t : State, Invariants s → step s = .next t → Invariants t

/-- The same of each row run by itself, in whatever order the agents move; and I8 in full: in a run from a state whose
counter is 0, each row below the counter (in COMPLETE, below `packets_per_frame`) holds the payload of an accept step
of that run, after which the counter was never 0 again. -/
def Obligations.EveryInterleavingKeepsTheInvariants : Prop :=
  ∀ (is : List Instr) (s t : State), Invariants s → execAll is s = .next t →
    Invariants t ∧
    (t.faState = .complete → t.expectedPacketId = t.packetsPerFrame) ∧
    (s.expectedPacketId = 0#8 → ∀ r, r < t.expectedPacketId.toNat →
      ∃ before i after u v payload, AcceptedSinceZero is s t r before i after u v payload)

/-- 10_state.md R24: what sets `resyncing` and what clears it. -/
def Obligations.OnlyRecoveryClearsResyncing : Prop :=
  ∀ (i : Instr) (s t : State), exec i s = .next t →
    (s.resyncing = true → t.resyncing = false → i = .scFinish) ∧
    (s.resyncing = false → t.resyncing = true →
      agentOf i = .producer ∨ i = .reset ∨ (i = .cmdCaptureStart ∧ s.params.captureForcesResync = true))

/-- 10_state.md R27: what sets `armed` and what clears it; `rx_enable` equals it. -/
def Obligations.OnlyRecoveryMovesArmed : Prop :=
  ∀ (i : Instr) (s t : State), exec i s = .next t →
    (s.armed = false → t.armed = true → i = .scFinish) ∧
    (s.armed = true → t.armed = false → i = .scStart ∨ i = .reset) ∧
    (i = .scFinish → t.armed = true) ∧ (i = .scStart ∨ i = .reset → t.armed = false) ∧ t.rxEnable = t.armed

/-- 10_state.md R30, 44_host_interface.md R150: what sets `capturing` and what clears it. -/
def Obligations.CaptureEndsOnlyByCompletionOrReset : Prop :=
  ∀ (i : Instr) (s t : State), exec i s = .next t →
    (s.capturing = false → t.capturing = true → i = .cmdCaptureStart) ∧
    (s.capturing = true → t.capturing = false →
      i = .reset ∨ (agentOf i = .producer ∧ t.faState = .complete))

/-- 10_state.md R31: the frame buffer is written only by an accept step, which writes the row of the counter and no
other byte; hardware reset makes it unspecified. -/
def Obligations.OnlyAcceptWritesTheFrameBuffer : Prop :=
  ∀ (i : Instr) (s t : State), exec i s = .next t →
    t.fb = s.fb ∨ i = .reset ∨
      (agentOf i = .producer ∧ s.armed = true ∧ s.faState ≠ .complete ∧ s.faState ≠ .resyncing ∧
        t.expectedPacketId = s.expectedPacketId + 1#8 ∧
        ∀ a, a < rowAddress s.nextRow ∨ rowAddress s.nextRow + 160 ≤ a → t.fb.read a = s.fb.read a)

/-- 60_exceptions.md R172, the producer: no configuration, no `armed`, `sc_state` or `quiet_cnt`; it never clears
`resyncing` nor sets `capturing`; in COMPLETE it writes nothing. -/
def Obligations.ProducerWritesOnlyItsOwn : Prop :=
  ∀ (i : Instr) (s t : State), exec i s = .next t → agentOf i = .producer →
    t.hRes = s.hRes ∧ t.vRes = s.vRes ∧ t.fmtSel = s.fmtSel ∧ t.armed = s.armed ∧ t.scState = s.scState ∧
      t.quietCnt = s.quietCnt ∧ (s.resyncing = true → t.resyncing = true) ∧
      (t.capturing = true → s.capturing = true) ∧ (s.faState = .complete → SameCore s t)

/-- 60_exceptions.md R172, the recovery FSM with its timer: no frame buffer, no configuration, no `capturing`; the tick
writes the quiet count only. -/
def Obligations.RecoveryWritesOnlyItsOwn : Prop :=
  ∀ (i : Instr) (s t : State), exec i s = .next t → agentOf i = .recovery ∨ agentOf i = .timebase →
    t.fb = s.fb ∧ t.hRes = s.hRes ∧ t.vRes = s.vRes ∧ t.fmtSel = s.fmtSel ∧ t.capturing = s.capturing ∧
      (agentOf i = .timebase → SameCore s { t with quietCnt := s.quietCnt })

/-- 44_host_interface.md R140, 60_exceptions.md R172, the host short of hardware reset: no frame buffer, `armed`,
`sc_state` or `quiet_cnt`; it never clears `capturing` or `resyncing` and sets `resyncing` only under
`CAPTURE_FORCES_RESYNC`; during a capture it moves no counter. -/
def Obligations.HostWritesOnlyItsOwn : Prop :=
  ∀ (i : Instr) (s t : State), exec i s = .next t → agentOf i = .host → i ≠ .reset →
    t.fb = s.fb ∧ t.armed = s.armed ∧ t.scState = s.scState ∧ t.quietCnt = s.quietCnt ∧
      (s.capturing = true → t.capturing = true) ∧ (s.resyncing = true → t.resyncing = true) ∧
      (t.resyncing = true → s.resyncing = true ∨ s.params.captureForcesResync = true) ∧
      (s.capturing = true → t.expectedPacketId = s.expectedPacketId ∧
        t.expectedSegmentId = s.expectedSegmentId ∧ t.resyncing = s.resyncing)

/-- 60_exceptions.md R169, 41_receiver.md R101: `pkt_evt` is pulsed by the step of a received packet and by no other. -/
def Obligations.PacketEventMarksReceptionExactly : Prop :=
  ∀ (i : Instr) (s t : State), exec i s = .next t → (t.out.pktEvt = true ↔ isReception i = true)

/-- 20_memory.md R58, 10_state.md R39: once a frame is COMPLETE it stays COMPLETE and every sample reads the same,
whatever packets, ticks and host moves come, until the host takes the buffer back or hardware reset comes. -/
def Obligations.CompletedFrameStaysUntilTakenBack : Prop :=
  ∀ (is : List Instr) (s t : State), Invariants s → s.faState = .complete → (∀ i ∈ is, takesFrameBack i = false) →
    execAll is s = .next t → t.faState = .complete ∧ t.fb = s.fb ∧ ∀ j, t.sample j = s.sample j
end

