-- ==== Sys2Proof/Laws/State.lean ====
section
/-! SUPPORT. One lemma per field per update of the state, and what an update leaves of the derived values; all true
by rfl, so that no later proof unfolds a record update. -/

namespace Sys2Proof.Machine

/-! ## Outputs are one update -/

@[simp] theorem quietly_eq (s : State) : s.quietly = s.emit ⟨false, none, none, none⟩ := rfl
@[simp] theorem packetEvent_eq (s : State) : s.packetEvent = s.emit ⟨true, none, none, none⟩ := rfl
@[simp] theorem respond_eq (r : Response) (s : State) : s.respond r = s.emit ⟨false, some r, none, none⟩ := rfl
@[simp] theorem emit_emit (o o' : Outputs) (s : State) : (s.emit o).emit o' = s.emit o' := rfl

/-! ## emit -/

@[simp] theorem emit_hRes (o : Outputs) (s : State) : (s.emit o).hRes = s.hRes := rfl
@[simp] theorem emit_vRes (o : Outputs) (s : State) : (s.emit o).vRes = s.vRes := rfl
@[simp] theorem emit_fmtSel (o : Outputs) (s : State) : (s.emit o).fmtSel = s.fmtSel := rfl
@[simp] theorem emit_resyncing (o : Outputs) (s : State) : (s.emit o).resyncing = s.resyncing := rfl
@[simp] theorem emit_expectedPacketId (o : Outputs) (s : State) :
    (s.emit o).expectedPacketId = s.expectedPacketId := rfl
@[simp] theorem emit_expectedSegmentId (o : Outputs) (s : State) :
    (s.emit o).expectedSegmentId = s.expectedSegmentId := rfl
@[simp] theorem emit_armed (o : Outputs) (s : State) : (s.emit o).armed = s.armed := rfl
@[simp] theorem emit_capturing (o : Outputs) (s : State) : (s.emit o).capturing = s.capturing := rfl
@[simp] theorem emit_scState (o : Outputs) (s : State) : (s.emit o).scState = s.scState := rfl
@[simp] theorem emit_quietCnt (o : Outputs) (s : State) : (s.emit o).quietCnt = s.quietCnt := rfl
@[simp] theorem emit_fb (o : Outputs) (s : State) : (s.emit o).fb = s.fb := rfl
@[simp] theorem emit_params (o : Outputs) (s : State) : (s.emit o).params = s.params := rfl
@[simp] theorem emit_schedule (o : Outputs) (s : State) : (s.emit o).schedule = s.schedule := rfl
@[simp] theorem emit_out (o : Outputs) (s : State) : (s.emit o).out = o := rfl
@[simp] theorem emit_fbPowerUp (o : Outputs) (s : State) : (s.emit o).fbPowerUp = s.fbPowerUp := rfl

/-! ## restartCounters -/

@[simp] theorem restartCounters_hRes (s : State) : (s.restartCounters).hRes = s.hRes := rfl
@[simp] theorem restartCounters_vRes (s : State) : (s.restartCounters).vRes = s.vRes := rfl
@[simp] theorem restartCounters_fmtSel (s : State) : (s.restartCounters).fmtSel = s.fmtSel := rfl
@[simp] theorem restartCounters_resyncing (s : State) : (s.restartCounters).resyncing = s.resyncing := rfl
@[simp] theorem restartCounters_expectedPacketId (s : State) : (s.restartCounters).expectedPacketId = 0#8 := rfl
@[simp] theorem restartCounters_expectedSegmentId (s : State) : (s.restartCounters).expectedSegmentId = 1#3 := rfl
@[simp] theorem restartCounters_armed (s : State) : (s.restartCounters).armed = s.armed := rfl
@[simp] theorem restartCounters_capturing (s : State) : (s.restartCounters).capturing = s.capturing := rfl
@[simp] theorem restartCounters_scState (s : State) : (s.restartCounters).scState = s.scState := rfl
@[simp] theorem restartCounters_quietCnt (s : State) : (s.restartCounters).quietCnt = s.quietCnt := rfl
@[simp] theorem restartCounters_fb (s : State) : (s.restartCounters).fb = s.fb := rfl
@[simp] theorem restartCounters_params (s : State) : (s.restartCounters).params = s.params := rfl
@[simp] theorem restartCounters_schedule (s : State) : (s.restartCounters).schedule = s.schedule := rfl
@[simp] theorem restartCounters_out (s : State) : (s.restartCounters).out = s.out := rfl
@[simp] theorem restartCounters_fbPowerUp (s : State) : (s.restartCounters).fbPowerUp = s.fbPowerUp := rfl

/-! ## raiseSyncLost -/

@[simp] theorem raiseSyncLost_hRes (s : State) : (s.raiseSyncLost).hRes = s.hRes := rfl
@[simp] theorem raiseSyncLost_vRes (s : State) : (s.raiseSyncLost).vRes = s.vRes := rfl
@[simp] theorem raiseSyncLost_fmtSel (s : State) : (s.raiseSyncLost).fmtSel = s.fmtSel := rfl
@[simp] theorem raiseSyncLost_resyncing (s : State) : (s.raiseSyncLost).resyncing = true := rfl
@[simp] theorem raiseSyncLost_expectedPacketId (s : State) :
    (s.raiseSyncLost).expectedPacketId = s.expectedPacketId := rfl
@[simp] theorem raiseSyncLost_expectedSegmentId (s : State) :
    (s.raiseSyncLost).expectedSegmentId = s.expectedSegmentId := rfl
@[simp] theorem raiseSyncLost_armed (s : State) : (s.raiseSyncLost).armed = s.armed := rfl
@[simp] theorem raiseSyncLost_capturing (s : State) : (s.raiseSyncLost).capturing = s.capturing := rfl
@[simp] theorem raiseSyncLost_scState (s : State) : (s.raiseSyncLost).scState = s.scState := rfl
@[simp] theorem raiseSyncLost_quietCnt (s : State) : (s.raiseSyncLost).quietCnt = s.quietCnt := rfl
@[simp] theorem raiseSyncLost_fb (s : State) : (s.raiseSyncLost).fb = s.fb := rfl
@[simp] theorem raiseSyncLost_params (s : State) : (s.raiseSyncLost).params = s.params := rfl
@[simp] theorem raiseSyncLost_schedule (s : State) : (s.raiseSyncLost).schedule = s.schedule := rfl
@[simp] theorem raiseSyncLost_out (s : State) : (s.raiseSyncLost).out = s.out := rfl
@[simp] theorem raiseSyncLost_fbPowerUp (s : State) : (s.raiseSyncLost).fbPowerUp = s.fbPowerUp := rfl

/-! ## beginQuiet -/

@[simp] theorem beginQuiet_hRes (s : State) : (s.beginQuiet).hRes = s.hRes := rfl
@[simp] theorem beginQuiet_vRes (s : State) : (s.beginQuiet).vRes = s.vRes := rfl
@[simp] theorem beginQuiet_fmtSel (s : State) : (s.beginQuiet).fmtSel = s.fmtSel := rfl
@[simp] theorem beginQuiet_resyncing (s : State) : (s.beginQuiet).resyncing = s.resyncing := rfl
@[simp] theorem beginQuiet_expectedPacketId (s : State) : (s.beginQuiet).expectedPacketId = s.expectedPacketId := rfl
@[simp] theorem beginQuiet_expectedSegmentId (s : State) :
    (s.beginQuiet).expectedSegmentId = s.expectedSegmentId := rfl
@[simp] theorem beginQuiet_armed (s : State) : (s.beginQuiet).armed = false := rfl
@[simp] theorem beginQuiet_capturing (s : State) : (s.beginQuiet).capturing = s.capturing := rfl
@[simp] theorem beginQuiet_scState (s : State) : (s.beginQuiet).scState = .quiet := rfl
@[simp] theorem beginQuiet_quietCnt (s : State) : (s.beginQuiet).quietCnt = 0 := rfl
@[simp] theorem beginQuiet_fb (s : State) : (s.beginQuiet).fb = s.fb := rfl
@[simp] theorem beginQuiet_params (s : State) : (s.beginQuiet).params = s.params := rfl
@[simp] theorem beginQuiet_schedule (s : State) : (s.beginQuiet).schedule = s.schedule := rfl
@[simp] theorem beginQuiet_out (s : State) : (s.beginQuiet).out = s.out := rfl
@[simp] theorem beginQuiet_fbPowerUp (s : State) : (s.beginQuiet).fbPowerUp = s.fbPowerUp := rfl

/-! ## returnFromResync -/

@[simp] theorem returnFromResync_hRes (s : State) : (s.returnFromResync).hRes = s.hRes := rfl
@[simp] theorem returnFromResync_vRes (s : State) : (s.returnFromResync).vRes = s.vRes := rfl
@[simp] theorem returnFromResync_fmtSel (s : State) : (s.returnFromResync).fmtSel = s.fmtSel := rfl
@[simp] theorem returnFromResync_resyncing (s : State) : (s.returnFromResync).resyncing = false := rfl
@[simp] theorem returnFromResync_expectedPacketId (s : State) : (s.returnFromResync).expectedPacketId = 0#8 := rfl
@[simp] theorem returnFromResync_expectedSegmentId (s : State) : (s.returnFromResync).expectedSegmentId = 1#3 := rfl
@[simp] theorem returnFromResync_armed (s : State) : (s.returnFromResync).armed = true := rfl
@[simp] theorem returnFromResync_capturing (s : State) : (s.returnFromResync).capturing = s.capturing := rfl
@[simp] theorem returnFromResync_scState (s : State) : (s.returnFromResync).scState = .idle := rfl
@[simp] theorem returnFromResync_quietCnt (s : State) : (s.returnFromResync).quietCnt = s.quietCnt := rfl
@[simp] theorem returnFromResync_fb (s : State) : (s.returnFromResync).fb = s.fb := rfl
@[simp] theorem returnFromResync_params (s : State) : (s.returnFromResync).params = s.params := rfl
@[simp] theorem returnFromResync_schedule (s : State) : (s.returnFromResync).schedule = s.schedule := rfl
@[simp] theorem returnFromResync_out (s : State) : (s.returnFromResync).out = s.out := rfl
@[simp] theorem returnFromResync_fbPowerUp (s : State) : (s.returnFromResync).fbPowerUp = s.fbPowerUp := rfl

/-! ## accepted -/

@[simp] theorem accepted_hRes (pl : Payload) (s : State) : (s.accepted pl).hRes = s.hRes := rfl
@[simp] theorem accepted_vRes (pl : Payload) (s : State) : (s.accepted pl).vRes = s.vRes := rfl
@[simp] theorem accepted_fmtSel (pl : Payload) (s : State) : (s.accepted pl).fmtSel = s.fmtSel := rfl
@[simp] theorem accepted_resyncing (pl : Payload) (s : State) : (s.accepted pl).resyncing = s.resyncing := rfl
@[simp] theorem accepted_expectedPacketId (pl : Payload) (s : State) :
    (s.accepted pl).expectedPacketId = s.advancedId := rfl
@[simp] theorem accepted_expectedSegmentId (pl : Payload) (s : State) :
    (s.accepted pl).expectedSegmentId =
      if s.advancedId % 60#8 = 0#8 then s.expectedSegmentId + 1#3 else s.expectedSegmentId := rfl
@[simp] theorem accepted_armed (pl : Payload) (s : State) : (s.accepted pl).armed = s.armed := rfl
@[simp] theorem accepted_capturing (pl : Payload) (s : State) :
    (s.accepted pl).capturing = if s.advancedId = s.packetsPerFrame then false else s.capturing := rfl
@[simp] theorem accepted_scState (pl : Payload) (s : State) : (s.accepted pl).scState = s.scState := rfl
@[simp] theorem accepted_quietCnt (pl : Payload) (s : State) : (s.accepted pl).quietCnt = s.quietCnt := rfl
@[simp] theorem accepted_fb (pl : Payload) (s : State) : (s.accepted pl).fb = s.fb.writeRow s.nextRow pl := rfl
@[simp] theorem accepted_params (pl : Payload) (s : State) : (s.accepted pl).params = s.params := rfl
@[simp] theorem accepted_schedule (pl : Payload) (s : State) : (s.accepted pl).schedule = s.schedule := rfl
@[simp] theorem accepted_out (pl : Payload) (s : State) : (s.accepted pl).out = s.out := rfl
@[simp] theorem accepted_fbPowerUp (pl : Payload) (s : State) : (s.accepted pl).fbPowerUp = s.fbPowerUp := rfl

/-! ## Derived values -/

@[simp] theorem emit_packetsPerFrame (o : Outputs) (s : State) : (s.emit o).packetsPerFrame = s.packetsPerFrame := rfl
@[simp] theorem emit_faState (o : Outputs) (s : State) : (s.emit o).faState = s.faState := rfl
@[simp] theorem emit_frameComplete (o : Outputs) (s : State) : (s.emit o).frameComplete = s.frameComplete := rfl
@[simp] theorem emit_configured (o : Outputs) (s : State) : (s.emit o).configured = s.configured := rfl
@[simp] theorem emit_recoveryCanStart (o : Outputs) (s : State) : (s.emit o).recoveryCanStart = s.recoveryCanStart := rfl
@[simp] theorem emit_recoveryCanFinish (o : Outputs) (s : State) : (s.emit o).recoveryCanFinish = s.recoveryCanFinish := rfl
@[simp] theorem emit_assembling (o : Outputs) (s : State) : (s.emit o).assembling = s.assembling := rfl
@[simp] theorem emit_dropping (o : Outputs) (s : State) : (s.emit o).dropping = s.dropping := rfl
@[simp] theorem emit_expectedId (o : Outputs) (s : State) : (s.emit o).expectedId = s.expectedId := rfl
@[simp] theorem emit_nextRow (o : Outputs) (s : State) : (s.emit o).nextRow = s.nextRow := rfl
@[simp] theorem emit_advancedId (o : Outputs) (s : State) : (s.emit o).advancedId = s.advancedId := rfl
@[simp] theorem restartCounters_packetsPerFrame (s : State) :
    (s.restartCounters).packetsPerFrame = s.packetsPerFrame := rfl
@[simp] theorem raiseSyncLost_packetsPerFrame (s : State) :
    (s.raiseSyncLost).packetsPerFrame = s.packetsPerFrame := rfl
@[simp] theorem beginQuiet_packetsPerFrame (s : State) :
    (s.beginQuiet).packetsPerFrame = s.packetsPerFrame := rfl
@[simp] theorem returnFromResync_packetsPerFrame (s : State) :
    (s.returnFromResync).packetsPerFrame = s.packetsPerFrame := rfl
@[simp] theorem accepted_packetsPerFrame (pl : Payload) (s : State) :
    (s.accepted pl).packetsPerFrame = s.packetsPerFrame := rfl

/-- A tick writes the quiet count only. -/
theorem countTick_cases (s : State) :
    (s.scState = .quiet ∧ s.quietCnt < s.params.quietTicks ∧ s.countTick = { s with quietCnt := s.quietCnt + 1 }) ∨
      (¬(s.scState = .quiet ∧ s.quietCnt < s.params.quietTicks) ∧ s.countTick = s) := by
  unfold State.countTick
  split
  · next h => exact .inl ⟨h.1, h.2, rfl⟩
  · next h => exact .inr ⟨h, rfl⟩

/-- An id mismatch restarts the counters in Hunting and raises SyncLost elsewhere (R117, R118). -/
theorem idMismatch_cases (s : State) :
    (s.expectedPacketId = 0#8 ∧ s.idMismatch = s.restartCounters) ∨
      (s.expectedPacketId ≠ 0#8 ∧ s.idMismatch = s.raiseSyncLost) := by
  unfold State.idMismatch
  split
  · next h => exact .inl ⟨h, rfl⟩
  · next h => exact .inr ⟨h, rfl⟩

/-- A segment mismatch restarts the counters in the first segment and raises SyncLost later (R119, R120). -/
theorem segmentMismatch_cases (s : State) :
    (s.expectedSegmentId = 1#3 ∧ s.segmentMismatch = s.restartCounters) ∨
      (s.expectedSegmentId ≠ 1#3 ∧ s.segmentMismatch = s.raiseSyncLost) := by
  unfold State.segmentMismatch
  split
  · next h => exact .inl ⟨h, rfl⟩
  · next h => exact .inr ⟨h, rfl⟩

/-- The geometry is one of two (10_state.md R23). -/
theorem packetsPerFrame_cases (s : State) : s.packetsPerFrame = 60#8 ∨ s.packetsPerFrame = 240#8 := by
  unfold State.packetsPerFrame
  split
  · exact .inr rfl
  · exact .inl rfl

end Sys2Proof.Machine
end

