-- ==== Sys2Proof/Laws/Decode.lean ====
section
/-! SUPPORT. The codec and the decoder: what each function can answer. -/

namespace Sys2Proof

/-- The classifier only gives classes that exist in the geometry. -/
theorem classify_fits (b0 b1 b2 b3 : Byte) (ppf : BitVec 8) : (classify b0 b1 b2 b3 ppf).fits ppf = true := by
  unfold classify
  split
  · rfl
  · next hd =>
    split
    · next h => simp [PacketClass.fits, h.2]
    · next hs =>
      split
      · next h =>
        have hs' : ¬(packetId b0 b1 = 20#12 ∧ ppf = 240#8) := by simpa using hs
        simp only [PacketClass.fits, h, hs', decide_true, decide_false, Bool.not_false, Bool.and_self]
      · next h =>
        simp only [isDiscard, decide_eq_true_eq] at hd
        simp only [PacketClass.fits, Bool.and_eq_true, decide_eq_true_eq]
        refine ⟨by simpa using h, ?_⟩
        have hn : (b0.extractLsb' 0 4).toNat ≠ 15 := fun h' => hd (BitVec.eq_of_toNat_eq h')
        have hlt := (b0.extractLsb' 0 4).isLt
        have hb := b1.isLt
        rw [BitVec.le_def, packetId, BitVec.toNat_append, ← Nat.shiftLeft_add_eq_or_of_lt hb, Nat.shiftLeft_eq]
        simp only [Config.maxOorPid, BitVec.toNat_ofNat]
        omega

/-- A class and its row are the same data. -/
theorem PacketClass.toInstr_inj {c c' : PacketClass} {pl pl' : Payload} (h : c.toInstr pl = c'.toInstr pl') :
    c = c' ∧ pl = pl' := by
  cases c <;> cases c' <;> simp_all [PacketClass.toInstr]

/-- The link's bytes of a packet are read back as that packet. -/
@[simp] theorem parsePacket_bytes (p : Packet) : parsePacket p.bytes = .ok p := by
  have h : p.payload.toList.length = 160 := by simp
  exact (dif_pos h).trans rfl

/-- What the decoder reads is the bytes of a packet and nothing else. -/
theorem parsePacket_ok {bytes : List Byte} {p : Packet} (h : parsePacket bytes = .ok p) : p.bytes = bytes := by
  unfold parsePacket at h
  split at h
  · split at h
    · cases h; rfl
    · cases h
  · cases h

/-- A packet has 164 bytes (R70). -/
@[simp] theorem Packet.length_bytes (p : Packet) : p.bytes.length = 164 := by
  simp [Packet.bytes]

/-- A link unit of another length is rejected by name. -/
theorem parsePacket_badLength {bytes : List Byte} (h : bytes.length ≠ 164) :
    parsePacket bytes = .error (.badPacketLength bytes.length) := by
  unfold parsePacket
  split
  · next rest =>
    rw [dif_neg (by simp at h; omega)]
    simp
  · rfl

end Sys2Proof
end

