-- ==== Sys2Proof/Laws/Memory.lean ====
section
/-! SUPPORT. The frame buffer: what a row write leaves at every address, and that it keeps the canonical form. -/

namespace Sys2Proof.Machine

@[simp] theorem Memory.read_nil (a : Nat) : Memory.read [] a = none := rfl

theorem Memory.read_append (m n : Memory) (a : Nat) :
    Memory.read (m ++ n) a = (Memory.read m a).or (Memory.read n a) := by
  induction m with
  | nil => simp
  | cons c m ih =>
    obtain ⟨k, b⟩ := c
    by_cases h : k = a <;> simp [Memory.read, h, ih]

/-- Filtering by address keeps the addresses that pass and loses the others. -/
theorem Memory.read_filter (p : Nat → Bool) (m : Memory) (a : Nat) :
    Memory.read (m.filter fun c => p c.1) a = if p a then Memory.read m a else none := by
  induction m with
  | nil => simp
  | cons c m ih =>
    obtain ⟨k, b⟩ := c
    by_cases hk : k = a
    · subst hk
      by_cases hp : p k <;> simp [Memory.read, hp, ih]
    · by_cases hp : p k <;> simp [Memory.read, hp, ih, hk]

theorem read_cellsFrom (base a : Nat) (bs : List Byte) :
    Memory.read (cellsFrom base bs) a = if base ≤ a then bs[a - base]? else none := by
  induction bs generalizing base with
  | nil => simp [cellsFrom]
  | cons b bs ih =>
    unfold cellsFrom Memory.read
    by_cases h : base = a
    · subst h; simp
    · rw [if_neg h, ih]
      by_cases hle : base + 1 ≤ a
      · rw [if_pos hle, if_pos (by omega), show a - base = (a - (base + 1)) + 1 by omega, List.getElem?_cons_succ]
      · rw [if_neg hle, if_neg (by omega)]

/-- What a row write leaves at an address: the row's byte inside the row, the old byte outside (20_memory.md R54). -/
theorem Memory.read_writeRow (m : Memory) (r : Nat) (row : Payload) (a : Nat) :
    Memory.read (m.writeRow r row) a =
      if rowAddress r ≤ a ∧ a < rowAddress r + 160 then row.toList[a - rowAddress r]? else Memory.read m a := by
  unfold Memory.writeRow
  rw [Memory.read_append, Memory.read_append, Memory.read_filter (fun k => decide (k < rowAddress r)),
    Memory.read_filter (fun k => decide (rowAddress r + Config.payloadBytes ≤ k)), read_cellsFrom]
  have hlen : row.toList.length = 160 := by simp
  by_cases h1 : rowAddress r ≤ a
  · by_cases h2 : a < rowAddress r + 160
    · have : ∃ b, row.toList[a - rowAddress r]? = some b := ⟨_, List.getElem?_eq_getElem (by omega)⟩
      obtain ⟨b, hb⟩ := this
      simp [h1, h2, hb, show ¬ a < rowAddress r by omega]
    · have : row.toList[a - rowAddress r]? = none := List.getElem?_eq_none (by omega)
      simp only [this]
      simp [h2, show rowAddress r + 160 ≤ a by omega, show ¬ a < rowAddress r by omega]
  · have h3 : a < rowAddress r := by omega
    simp only [h3, h1]
    simp [show ¬ rowAddress r + 160 ≤ a by omega]

/-- Byte `k` of a written row. -/
theorem Memory.read_writeRow_inside (m : Memory) (r : Nat) (row : Payload) (k : Nat) (hk : k < 160) :
    Memory.read (m.writeRow r row) (rowAddress r + k) = some row[k] := by
  rw [Memory.read_writeRow, if_pos (by omega)]
  simp [hk]

/-- A row write leaves every byte outside the row. -/
theorem Memory.read_writeRow_outside (m : Memory) (r : Nat) (row : Payload) (a : Nat)
    (h : a < rowAddress r ∨ rowAddress r + 160 ≤ a) : Memory.read (m.writeRow r row) a = Memory.read m a := by
  rw [Memory.read_writeRow, if_neg (by omega)]

/-! ## The canonical form -/

theorem Memory.wfFrom_mono {lo lo' : Nat} {m : Memory} (h : Memory.wfFrom lo m = true) (hl : lo' ≤ lo) :
    Memory.wfFrom lo' m = true := by
  cases m with
  | nil => rfl
  | cons c m => simp [Memory.wfFrom] at h ⊢; exact ⟨⟨by omega, h.1.2⟩, h.2⟩

theorem Memory.wfFrom_filter (p : Nat × Byte → Bool) {lo : Nat} {m : Memory} (h : Memory.wfFrom lo m = true) :
    Memory.wfFrom lo (m.filter p) = true := by
  induction m generalizing lo with
  | nil => exact h
  | cons c m ih =>
    simp [Memory.wfFrom] at h
    rw [List.filter_cons]
    split
    · simp [Memory.wfFrom]; exact ⟨h.1, ih h.2⟩
    · exact Memory.wfFrom_mono (ih h.2) (by omega)

/-- The tail from an address on is in form from that address. -/
theorem Memory.wfFrom_filter_ge (hi : Nat) {lo : Nat} {m : Memory} (h : Memory.wfFrom lo m = true) :
    Memory.wfFrom hi (m.filter fun c => decide (hi ≤ c.1)) = true := by
  induction m generalizing lo with
  | nil => rfl
  | cons c m ih =>
    simp [Memory.wfFrom] at h
    rw [List.filter_cons]
    split
    · next hp =>
      simp at hp
      simp [Memory.wfFrom]
      exact ⟨⟨hp, h.1.2⟩, Memory.wfFrom_filter _ h.2⟩
    · exact ih h.2

theorem wfFrom_cellsFrom_append (base : Nat) (bs : List Byte) (m : Memory) (hb : base + bs.length ≤ 38400)
    (h : Memory.wfFrom (base + bs.length) m = true) : Memory.wfFrom base (cellsFrom base bs ++ m) = true := by
  induction bs generalizing base with
  | nil => exact h
  | cons b bs ih =>
    simp only [List.length_cons] at hb h
    simp [cellsFrom, Memory.wfFrom]
    exact ⟨by omega, ih (base + 1) (by omega) (by rwa [show base + 1 + bs.length = base + (bs.length + 1) by omega])⟩

theorem Memory.wfFrom_filter_lt_append (hi : Nat) {lo : Nat} {m n : Memory} (h : Memory.wfFrom lo m = true)
    (hlo : lo ≤ hi) (hn : Memory.wfFrom hi n = true) :
    Memory.wfFrom lo ((m.filter fun c => decide (c.1 < hi)) ++ n) = true := by
  induction m generalizing lo with
  | nil => exact Memory.wfFrom_mono hn hlo
  | cons c m ih =>
    simp [Memory.wfFrom] at h
    rw [List.filter_cons]
    split
    · next hp =>
      simp at hp
      simp [Memory.wfFrom]
      exact ⟨h.1, by simpa using ih h.2 (by omega)⟩
    · by_cases hc : c.1 + 1 ≤ hi
      · exact Memory.wfFrom_mono (ih h.2 hc) (by omega)
      · have hge : ∀ d ∈ m, hi ≤ d.1 := by
          intro d hd
          have key : ∀ (l : Nat) (m : Memory), Memory.wfFrom l m = true → ∀ d ∈ m, l ≤ d.1 := by
            intro l m
            induction m generalizing l with
            | nil => simp
            | cons e m ih' =>
              intro hm d hd
              simp [Memory.wfFrom] at hm
              rcases List.mem_cons.mp hd with rfl | hd
              · exact hm.1.1
              · have := ih' _ hm.2 d hd; omega
          have := key _ _ h.2 d hd
          omega
        have : (m.filter fun c => decide (c.1 < hi)) = [] := by
          rw [List.filter_eq_nil_iff]
          intro d hd
          have := hge d hd
          simp; omega
        rw [this, List.nil_append]
        exact Memory.wfFrom_mono hn hlo

/-- A row write inside the frame buffer keeps the canonical form. -/
theorem Memory.wf_writeRow (m : Memory) (r : Nat) (row : Payload) (hr : r < 240) (h : m.wf = true) :
    (m.writeRow r row).wf = true := by
  unfold Memory.writeRow Memory.wf at *
  rw [List.append_assoc]
  have hlen : row.toList.length = 160 := by simp
  refine Memory.wfFrom_filter_lt_append (rowAddress r) h (by omega) ?_
  refine wfFrom_cellsFrom_append _ _ _ ?_ ?_
  · simp only [hlen, rowAddress, Config.payloadBytes]; omega
  · rw [hlen]; exact Memory.wfFrom_filter_ge _ h

@[simp] theorem Memory.wf_nil : Memory.wf [] = true := rfl

/-- The frame buffer after hardware reset has the canonical form. -/
theorem reset_fb_wf : State.reset.fb.wf = true := rfl

end Sys2Proof.Machine
end

