-- ==== Sys2Proof/Laws/Ops.lean ====
section
/-! SUPPORT. One lemma per shared operation: everything it can do. -/

namespace Sys2Proof.Machine

theorem next_inj {s t : State} : (Host.Outcome.next s : Result) = .next t ↔ s = t :=
  ⟨fun h => by cases h; rfl, fun h => by rw [h]⟩

/-- An accept step that answers a next state has written an existing row (R121). -/
theorem acceptPacket_next {pl : Payload} {s t : State} (h : acceptPacket pl s = .next t) :
    s.nextRow < 240 ∧ t = s.accepted pl := by
  unfold acceptPacket at h
  split at h
  · next hr => cases h; exact ⟨hr, rfl⟩
  · cases h

/-- What `FA.on_packet` can do (R111): leave the state, meet a mismatch of the id, meet a mismatch of the segment, or
accept. -/
theorem onPacket_next {c : PacketClass} {pl : Payload} {s t : State} (h : onPacket c pl s = .next t) :
    ((c = .discard ∨ s.expectedPacketId = s.packetsPerFrame) ∧ t = s) ∨
      ∃ pid seg, fieldsOf c = some (pid, seg) ∧ s.expectedPacketId ≠ s.packetsPerFrame ∧
        ((pid ≠ s.expectedId ∧ t = s.idMismatch) ∨
          (pid = s.expectedId ∧ wrongSegment s.expectedSegmentId c = true ∧ t = s.segmentMismatch) ∨
          (pid = s.expectedId ∧ wrongSegment s.expectedSegmentId c = false ∧ s.nextRow < 240 ∧
            t = s.accepted pl)) := by
  unfold onPacket at h
  split at h
  · next hf =>
    cases h
    exact .inl ⟨.inl (by cases c <;> simp_all [fieldsOf]), rfl⟩
  · next pid seg hf =>
    split at h
    · next hc => cases h; exact .inl ⟨.inr hc, rfl⟩
    · next hc =>
      refine .inr ⟨pid, seg, hf, hc, ?_⟩
      split at h
      · next hp => cases h; exact .inl ⟨hp, rfl⟩
      · next hp =>
        have hp : pid = s.expectedId := by simpa using hp
        split at h
        · next hw => cases h; exact .inr (.inl ⟨hp, hw, rfl⟩)
        · next hw =>
          obtain ⟨hr, rfl⟩ := acceptPacket_next h
          exact .inr (.inr ⟨hp, by simpa using hw, hr, rfl⟩)

/-- A `PKT` row that runs is one the state and the geometry admit. -/
theorem assemble_next {m : String} {c : PacketClass} {pl : Payload} {s t : State} (h : assemble m c pl s = .next t) :
    s.armed = true ∧ s.resyncing = false ∧ c.fits s.packetsPerFrame = true ∧ onPacket c pl s.packetEvent = .next t := by
  unfold assemble at h
  split at h
  · next hg => simp [State.assembling] at hg; exact ⟨hg.1.1, hg.1.2, hg.2, h⟩
  · cases h

/-- A `PKT` row that the state and the geometry admit runs the Frame Assembler. -/
theorem assemble_run (m : String) (c : PacketClass) (pl : Payload) (s : State) (ha : s.armed = true)
    (hr : s.resyncing = false) (hf : c.fits s.packetsPerFrame = true) :
    assemble m c pl s = onPacket c pl s.packetEvent := by
  simp [assemble, State.assembling, ha, hr, hf]

/-- What a received packet can do (R101). -/
theorem execRxReceive_next {p : Packet} {s t : State} (h : execRxReceive p s = .next t) :
    s.armed = true ∧ ((s.resyncing = true ∧ t = s.packetEvent) ∨
      (s.resyncing = false ∧ onPacket (p.classOf s.packetsPerFrame) p.payload s.packetEvent = .next t)) := by
  unfold execRxReceive at h
  split at h
  · cases h
  · next ha =>
    refine ⟨by simpa using ha, ?_⟩
    split at h
    · next hr => cases h; exact .inl ⟨hr, rfl⟩
    · next hr => exact .inr ⟨by simpa using hr, h⟩

/-- What each row can do when it answers a next state: the inversion lemma of `exec`. -/
theorem exec_next {i : Instr} {s t : State} (h : exec i s = .next t) :
    (∃ o, t = s.emit o) ∨
    (s.armed = true ∧ s.resyncing = false ∧ ∃ c pl, c.fits s.packetsPerFrame = true ∧
      onPacket c pl s.packetEvent = .next t ∧
        (i = c.toInstr pl ∨ ∃ p, i = .rxReceive p ∧ c = p.classOf s.packetsPerFrame ∧ pl = p.payload)) ∨
    (∃ hh vv, i = .cmdSetGeometry hh vv ∧ s.capturing = false ∧
      t = State.respond .ok { s.restartCounters with hRes := hh, vRes := vv }) ∨
    (∃ b, i = .cmdSetFormat b ∧ t = State.respond .ok { s with fmtSel := b }) ∨
    (i = .cmdCaptureStart ∧ s.configured = true ∧ s.capturing = false ∧
      t = State.respond .ok { s.restartCounters with
        capturing := true, resyncing := s.resyncing || s.params.captureForcesResync }) ∨
    (i = .scStart ∧ s.recoveryCanStart = true ∧ t = s.beginQuiet.quietly) ∨
    (i = .scTick ∧ t = s.countTick.quietly) ∨
    (i = .scFinish ∧ s.recoveryCanFinish = true ∧ t = s.returnFromResync.quietly) ∨
    (i = .reset ∧ t = s.afterReset) := by
  have pkt : ∀ {m c pl}, assemble m c pl s = .next t → s.armed = true ∧ s.resyncing = false ∧
      ∃ c' pl', c'.fits s.packetsPerFrame = true ∧ onPacket c' pl' s.packetEvent = .next t ∧
        (c.toInstr pl = c'.toInstr pl' ∨
          ∃ p, c.toInstr pl = .rxReceive p ∧ c' = p.classOf s.packetsPerFrame ∧ pl' = p.payload) := by
    intro m c pl h
    obtain ⟨ha, hr, hf, hn⟩ := assemble_next h
    exact ⟨ha, hr, c, pl, hf, hn, .inl rfl⟩
  cases i with
  | pktDiscard payload => exact .inr (.inl (pkt h))
  | pktSpecial seg payload => exact .inr (.inl (pkt h))
  | pktNormal pid seg payload => exact .inr (.inl (pkt h))
  | pktOor pid seg payload => exact .inr (.inl (pkt h))
  | cmdSetGeometry hh vv =>
    simp only [exec, execSetGeometry] at h
    split at h
    · cases h; exact .inl ⟨_, rfl⟩
    · next hc => cases h; exact .inr (.inr (.inl ⟨hh, vv, rfl, by simpa using hc, rfl⟩))
  | cmdSetFormat b => cases h; exact .inr (.inr (.inr (.inl ⟨b, rfl, rfl⟩)))
  | cmdCaptureStart =>
    simp only [exec, execCaptureStart] at h
    split at h
    · cases h; exact .inl ⟨_, rfl⟩
    · next hcf =>
      split at h
      · cases h; exact .inl ⟨_, rfl⟩
      · next hc =>
        cases h
        exact .inr (.inr (.inr (.inr (.inl ⟨rfl, by simpa using hcf, by simpa using hc, rfl⟩))))
  | cmdReserved => cases h; exact .inl ⟨_, rfl⟩
  | stRead sel => cases h; exact .inl ⟨_, rfl⟩
  | fbRead j =>
    simp only [exec, execFbRead] at h
    split at h
    · cases h; exact .inl ⟨_, rfl⟩
    · cases h
  | rxReceive p =>
    obtain ⟨ha, ⟨hr, rfl⟩ | ⟨hr, hn⟩⟩ := execRxReceive_next h
    · exact .inl ⟨_, rfl⟩
    · exact .inr (.inl ⟨ha, hr, _, _, classify_fits _ _ _ _ _, hn, .inr ⟨p, rfl, rfl, rfl⟩⟩)
  | rxDrop =>
    simp only [exec, execRxDrop] at h
    split at h
    · cases h; exact .inl ⟨_, rfl⟩
    · cases h
  | rxUnarmed =>
    simp only [exec, execRxUnarmed] at h
    split at h
    · cases h
    · cases h; exact .inl ⟨_, rfl⟩
  | scStart =>
    simp only [exec, execScStart] at h
    split at h
    · next hg => cases h; exact .inr (.inr (.inr (.inr (.inr (.inl ⟨rfl, hg, rfl⟩)))))
    · cases h
  | scTick => cases h; exact .inr (.inr (.inr (.inr (.inr (.inr (.inl ⟨rfl, rfl⟩))))))
  | scFinish =>
    simp only [exec, execScFinish] at h
    split at h
    · next hg => cases h; exact .inr (.inr (.inr (.inr (.inr (.inr (.inr (.inl ⟨rfl, hg, rfl⟩)))))))
    · cases h
  | reset => cases h; exact .inr (.inr (.inr (.inr (.inr (.inr (.inr (.inr ⟨rfl, rfl⟩)))))))

end Sys2Proof.Machine
end

