-- ==== Sys2Proof/Laws/PerInstr.lean ====
section
/-! SUPPORT. Per-instruction statements, one lemma per constructor. -/

namespace Sys2Proof.Laws.PacketLength

/-- An instruction whose encoding is a link unit has one of exactly 164 bytes (30_encoding.md R70). -/
def Statement (i : Instr) : Prop := ∀ bytes, encode i = some (.packet bytes) → bytes.length = 164

theorem pktDiscard (payload : Payload) : Statement (.pktDiscard payload) := by
  intro bytes h; cases h; exact Packet.length_bytes _

theorem pktSpecial (seg : BitVec 3) (payload : Payload) : Statement (.pktSpecial seg payload) := by
  intro bytes h; cases h; exact Packet.length_bytes _

theorem pktNormal (pid : BitVec 12) (seg : BitVec 3) (payload : Payload) : Statement (.pktNormal pid seg payload) := by
  intro bytes h; cases h; exact Packet.length_bytes _

theorem pktOor (pid : BitVec 12) (seg : BitVec 3) (payload : Payload) : Statement (.pktOor pid seg payload) := by
  intro bytes h; cases h; exact Packet.length_bytes _

theorem cmdSetGeometry (h : BitVec 16) (v : BitVec 16) : Statement (.cmdSetGeometry h v) := by
  intro bytes h; cases h

theorem cmdSetFormat (b : Bool) : Statement (.cmdSetFormat b) := by
  intro bytes h; cases h

theorem cmdCaptureStart : Statement .cmdCaptureStart := by
  intro bytes h; cases h

theorem cmdReserved : Statement .cmdReserved := by
  intro bytes h; cases h

theorem stRead (sel : BitVec 4) : Statement (.stRead sel) := by
  intro bytes h; cases h

theorem fbRead (i : BitVec 15) : Statement (.fbRead i) := by
  intro bytes h; cases h

theorem rxReceive (p : Packet) : Statement (.rxReceive p) := by
  intro bytes h; cases h; exact Packet.length_bytes _

theorem rxDrop : Statement .rxDrop := by
  intro bytes h; cases h

theorem rxUnarmed : Statement .rxUnarmed := by
  intro bytes h; cases h

theorem scStart : Statement .scStart := by
  intro bytes h; cases h

theorem scTick : Statement .scTick := by
  intro bytes h; cases h

theorem scFinish : Statement .scFinish := by
  intro bytes h; cases h

theorem reset : Statement .reset := by
  intro bytes h; cases h

end Sys2Proof.Laws.PacketLength
end

