-- ==== Sys2Proof/Laws/Runs.lean ====
section
/-! SUPPORT. Runs of many steps: how they compose, and what one step can do to the counter and the frame buffer. -/

namespace Sys2Proof.Machine

/-- Two runs, one after the other. -/
theorem execAll_append {is js : List Instr} {s u t : State} (h1 : execAll is s = .next u)
    (h2 : execAll js u = .next t) : execAll (is ++ js) s = .next t := by
  induction is generalizing s with
  | nil => cases h1; exact h2
  | cons i is ih =>
    simp only [List.cons_append, execAll] at h1 ⊢
    split at h1
    · exact ih h1
    · cases h1
    · cases h1

/-- The last step of a run. -/
theorem execAll_concat {is : List Instr} {j : Instr} {s t : State} (h : execAll (is ++ [j]) s = .next t) :
    ∃ u, execAll is s = .next u ∧ exec j u = .next t := by
  induction is generalizing s with
  | nil =>
    simp only [List.nil_append, execAll] at h
    split at h
    · next u hu => cases h; exact ⟨s, rfl, hu⟩
    · cases h
    · cases h
  | cons i is ih =>
    simp only [List.cons_append, execAll] at h ⊢
    split at h
    · exact ih h
    · cases h
    · cases h

/-- What a step does to the counter and the frame buffer: it zeroes the counter, keeps both, or accepts the payload it
carries into the counter's row (10_state.md R25, R31). -/
theorem exec_counter {i : Instr} {s t : State} (h : exec i s = .next t) :
    t.expectedPacketId = 0#8 ∨ (t.expectedPacketId = s.expectedPacketId ∧ t.fb = s.fb) ∨
      ∃ pl, payloadOf i = some pl ∧ s.nextRow < 240 ∧ t.expectedPacketId = s.expectedPacketId + 1#8 ∧
        t.fb = s.fb.writeRow s.nextRow pl := by
  obtain ⟨o, rfl⟩ | ⟨-, -, c, pl, -, hn, hi⟩ | ⟨hh, vv, rfl, -, rfl⟩ | ⟨b, rfl, rfl⟩ | ⟨rfl, -, -, rfl⟩ |
    ⟨rfl, -, rfl⟩ | ⟨rfl, rfl⟩ | ⟨rfl, -, rfl⟩ | ⟨rfl, rfl⟩ := exec_next h
  · exact .inr (.inl ⟨rfl, rfl⟩)
  · have hp : payloadOf i = some pl := by
      rcases hi with rfl | ⟨p, rfl, -, rfl⟩
      · cases c <;> rfl
      · rfl
    obtain ⟨-, rfl⟩ | ⟨pid, seg, -, -, ⟨-, rfl⟩ | ⟨-, -, rfl⟩ | ⟨-, -, hrow, rfl⟩⟩ := onPacket_next hn
    · exact .inr (.inl ⟨rfl, rfl⟩)
    · obtain ⟨-, e⟩ | ⟨-, e⟩ := idMismatch_cases s.packetEvent <;> rw [e]
      · exact .inl rfl
      · exact .inr (.inl ⟨rfl, rfl⟩)
    · obtain ⟨-, e⟩ | ⟨-, e⟩ := segmentMismatch_cases s.packetEvent <;> rw [e]
      · exact .inl rfl
      · exact .inr (.inl ⟨rfl, rfl⟩)
    · exact .inr (.inr ⟨pl, hp, hrow, rfl, rfl⟩)
  · exact .inl rfl
  · exact .inr (.inl ⟨rfl, rfl⟩)
  · exact .inl rfl
  · exact .inr (.inl ⟨rfl, rfl⟩)
  · obtain ⟨_, _, e⟩ | ⟨_, e⟩ := countTick_cases s <;> rw [e] <;> exact .inr (.inl ⟨rfl, rfl⟩)
  · exact .inl rfl
  · exact .inl rfl

end Sys2Proof.Machine
end

