-- ==== Sys2Proof/Tests/Slice0.lean ====
section
/-! SUPPORT. The model's own tests. Expected values are those of 95_test_vectors.md (its rows are named in the
comments) and of the rules' own text; then, for each obligation with hypotheses, a witness that meets them. -/

namespace Sys2Proof.Tests

open Sys2Proof Sys2Proof.Machine

-- One theorem after another: many kernel evaluations at once would each hold a thread.
set_option Elab.async false

/-- `pay(t)` of 95_test_vectors.md. -/
def pay (t : Nat) : Payload := ⟨⟨(List.range 160).map fun k => BitVec.ofNat 8 (t + k)⟩, by simp⟩

/-- A packet with header bytes 2 and 3 `AB CD`, as in V1. -/
def pkt (b0 b1 : Byte) (t : Nat) : Packet := ⟨b0, b1, 0xAB, 0xCD, pay t⟩

/-- A configured core assembling a frame of `v` rows, `cap = 1`; nothing listed in the frame buffer. -/
def live (v : BitVec 16) (epid : BitVec 8) (eseg : BitVec 3) : State :=
  { State.reset with
    hRes := 80, vRes := v, fmtSel := true, resyncing := false, armed := true, capturing := true
    expectedPacketId := epid, expectedSegmentId := eseg }

/-- A component of the next state. -/
def pick {α : Type} (f : State → α) : Result → Option α
  | .next t => some (f t)
  | .fault _ => none
  | .refused _ => none

/-- The name of a refusal. -/
def refusal : Result → Option Refusal
  | .next _ => none
  | .fault _ => none
  | .refused r => some r

/-- What the decoder gives. -/
def given : Except DecodeReject Instr → Option Instr
  | .ok i => some i
  | .error _ => none

/-- The class outcomes of header bytes in the two geometries. -/
def classes (b0 b1 : Byte) : PacketClass × PacketClass :=
  (classify b0 b1 0xAB 0xCD 60, classify b0 b1 0xAB 0xCD 240)

/-! ## WellFormed: an ill-formed term for each check -/

theorem test_wf_normal_id : (Instr.pktNormal 60 0 (pay 0)).wf = false ∧ (Instr.pktNormal 59 0 (pay 0)).wf = true := by
  decide +kernel
theorem test_wf_oor_low : (Instr.pktOor 59 0 (pay 0)).wf = false ∧ (Instr.pktOor 60 0 (pay 0)).wf = true := by
  decide +kernel
theorem test_wf_oor_high : (Instr.pktOor 3840 0 (pay 0)).wf = false ∧ (Instr.pktOor 3839 0 (pay 0)).wf = true := by
  decide +kernel
theorem test_wf_sample : (Instr.fbRead 19200).wf = false ∧ (Instr.fbRead 19199).wf = true := by decide +kernel

/-! ## Decoding of words written out from the spec -/

/-- V1 rows 1 to 9. -/
theorem test_classify_rows_1_to_9 :
    classes 0x00 0x00 = (.normal 0 0, .normal 0 0) ∧ classes 0x00 0x14 = (.normal 20 0, .special 0) ∧
    classes 0x10 0x14 = (.normal 20 1, .special 1) ∧ classes 0x30 0x14 = (.normal 20 3, .special 3) ∧
    classes 0x00 0x3B = (.normal 59 0, .normal 59 0) ∧ classes 0xF0 0x05 = (.normal 5 7, .normal 5 7) ∧
    classes 0x0F 0x05 = (.discard, .discard) ∧ classes 0xFF 0xFF = (.discard, .discard) ∧
    classes 0x1F 0x14 = (.discard, .discard) := by decide +kernel

/-- V1 rows 10 to 17. -/
theorem test_classify_rows_10_to_17 :
    classes 0x00 0x3C = (.oor 60 0, .oor 60 0) ∧ classes 0x0E 0xFF = (.oor 3839 0, .oor 3839 0) ∧
    classes 0xA0 0x05 = (.normal 5 2, .normal 5 2) ∧ classes 0x01 0x00 = (.oor 256 0, .oor 256 0) ∧
    classes 0x80 0x14 = (.normal 20 0, .special 0) ∧ classes 0x70 0x14 = (.normal 20 7, .special 7) ∧
    classes 0x00 0x13 = (.normal 19 0, .normal 19 0) ∧ classes 0x00 0x15 = (.normal 21 0, .normal 21 0) := by
  decide +kernel

/-- The bytes of a packet decode to the row of its class. -/
theorem decode_row_of (b0 b1 b2 b3 : Byte) (pl : Payload) (ppf : BitVec 8) {c : PacketClass}
    (h : classify b0 b1 b2 b3 ppf = c) :
    decodeRow ppf (.packet (b0 :: b1 :: b2 :: b3 :: pl.toList)) = .ok (c.toInstr pl) := by
  have hp : parsePacket (b0 :: b1 :: b2 :: b3 :: pl.toList) = .ok ⟨b0, b1, b2, b3, pl⟩ :=
    parsePacket_bytes ⟨b0, b1, b2, b3, pl⟩
  subst h
  simp only [decodeRow, hp]
  rfl

/-- 30_encoding.md R77, the bytes on the link written out bit by bit: discard marker in bits 3:0 of byte 0. -/
theorem test_decode_discard (pl : Payload) :
    decodeRow 60 (.packet (0b10101111 :: 0b00000001 :: 0xAB :: 0xCD :: pl.toList)) = .ok (.pktDiscard pl) :=
  decode_row_of 0b10101111 0b00000001 0xAB 0xCD pl _ (c := .discard) (by decide +kernel)
/-- Segment 3 in bits 6:4 of byte 0, id 20. -/
theorem test_decode_special (pl : Payload) :
    decodeRow 240 (.packet (0b00110000 :: 0b00010100 :: 0xAB :: 0xCD :: pl.toList)) = .ok (.pktSpecial 0b011 pl) :=
  decode_row_of 0b00110000 0b00010100 0xAB 0xCD pl _ (c := .special 0b011) (by decide +kernel)
/-- Id 59, bit 7 of byte 0 ignored. -/
theorem test_decode_normal (pl : Payload) :
    decodeRow 240 (.packet (0b10100000 :: 0b00111011 :: 0xAB :: 0xCD :: pl.toList)) = .ok (.pktNormal 59 0b010 pl) :=
  decode_row_of 0b10100000 0b00111011 0xAB 0xCD pl _ (c := .normal 59 0b010) (by decide +kernel)
/-- Id 0x13C: bits 3:0 of byte 0 are the top of the id. -/
theorem test_decode_oor (pl : Payload) :
    decodeRow 240 (.packet (0b01010001 :: 0b00111100 :: 0xAB :: 0xCD :: pl.toList)) =
      .ok (.pktOor 0b000100111100 0b101 pl) :=
  decode_row_of 0b01010001 0b00111100 0xAB 0xCD pl _ (c := .oor 0b000100111100 0b101) (by decide +kernel)
/-- 41_receiver.md R101, R104: the same packet, armed and not. -/
theorem test_decode_packet :
    given (decode true (.packet (0x30 :: 0x14 :: 0xAB :: 0xCD :: (pay 7).toList))) =
      some (.rxReceive (pkt 0x30 0x14 7)) ∧
    given (decode false (.packet (0x30 :: 0x14 :: 0xAB :: 0xCD :: (pay 7).toList))) =
      some Instr.rxUnarmed := by decide +kernel
/-- V5 rows 2 and 6: `cmd_arg` = `0x003C0050` is SETGEO 80 60, `0x007800A0` is SETGEO 160 120. -/
theorem test_decode_geometry :
    decode true (.command 0b00 0x003C0050) = .ok (.cmdSetGeometry 80 60) ∧
    decode true (.command 0b00 0x007800A0) = .ok (.cmdSetGeometry 160 120) := ⟨rfl, rfl⟩
/-- 30_encoding.md R80: bit 0 only. -/
theorem test_decode_format :
    decode true (.command 0b01 0x00000001) = .ok (.cmdSetFormat true) ∧
    decode true (.command 0b01 0xFFFFFFFE) = .ok (.cmdSetFormat false) := ⟨rfl, rfl⟩
theorem test_decode_capture_reserved :
    decode true (.command 0b10 0xFFFFFFFF) = .ok .cmdCaptureStart ∧
    decode true (.command 0b11 0) = .ok .cmdReserved := ⟨rfl, rfl⟩
theorem test_decode_ports :
    decode true (.statusRead 0b1011) = .ok (.stRead 11) ∧
    decode true (.frameRead 0b100101011111111) = .ok (.fbRead 19199) ∧
    decode true (.frameRead 19200) = .error (.noSuchSample 19200) := ⟨rfl, rfl, rfl⟩
/-- 30_encoding.md R83: the steps without a bit pattern. -/
theorem test_decode_events :
    decode true .recoveryStart = .ok .scStart ∧ decode true .tick = .ok .scTick ∧
    decode true .recoveryFinish = .ok .scFinish ∧ decode true .hardwareReset = .ok .reset := ⟨rfl, rfl, rfl, rfl⟩
/-- The command word of the table: `cmd_op` in bits 1:0, `cmd_arg` above it (log 10). -/
theorem test_table_word_command :
    decodeTableWord 40 (0x003C0050 * 4) = some (.cmdSetGeometry 80 60) ∧
    decodeTableWord 8 3 = some .cmdReserved := ⟨rfl, rfl⟩

/-! ## Single steps -/

/-- V2 row 8. -/
theorem test_discard_changes_nothing :
    pick id (exec (.pktDiscard (pay 0x55)) (live 60 3 1)) =
      some { live 60 3 1 with out := ⟨true, none, none, none⟩ } := by decide +kernel
/-- V2 row 4. -/
theorem test_normal_accepted :
    pick (fun t => (t.expectedPacketId, t.fb.read 479, t.fb.read 480, t.fb.read 639, t.fb.read 640))
      (exec (.pktNormal 3 0 (pay 0x55)) (live 60 3 1)) =
      some (4, none, some 0x55, some 0xF4, none) := by decide +kernel
/-- V2 row 24: the last row, the segment counter past 4, the capture ends. -/
theorem test_normal_completes :
    pick (fun t => ((t.expectedPacketId, t.expectedSegmentId, t.capturing), t.faState, t.fb.read 38240, t.fb.read 38399))
      (exec (.pktNormal 59 0 (pay 0x55)) (live 61 239 4)) =
      some ((240, 5, false), .complete, some 0x55, some 0xF4) := by decide +kernel
/-- V2 row 17. -/
theorem test_special_accepted :
    pick (fun t => (t.expectedPacketId, t.expectedSegmentId, t.fb.read 12799, t.fb.read 12800, t.fb.read 12959))
      (exec (.pktSpecial 2 (pay 0x55)) (live 61 80 2)) = some (81, 2, none, some 0x55, some 0xF4) := by decide +kernel
/-- V2 rows 18 and 15: SyncLost in a later segment, back to Hunting in the first. -/
theorem test_special_wrong_segment :
    pick (fun t => (t.resyncing, t.expectedPacketId, t.expectedSegmentId))
      (exec (.pktSpecial 3 (pay 0x55)) (live 61 80 2)) = some (true, 80, 2) ∧
    pick (fun t => (t.resyncing, t.expectedPacketId, t.expectedSegmentId))
      (exec (.pktSpecial 0 (pay 0x55)) (live 61 20 1)) = some (false, 0, 1) := by decide +kernel
/-- V2 row 9: id 60 is compared with `60 mod 60`. -/
theorem test_oor_is_a_mismatch :
    pick (fun t => (t.resyncing, t.expectedPacketId, t.fb)) (exec (.pktOor 60 0 (pay 0x55)) (live 61 60 2)) =
      some (true, 60, []) := by decide +kernel
/-- V2 row 3. -/
theorem test_oor_in_hunting :
    pick id (exec (.pktOor 60 0 (pay 0x55)) (live 60 0 1)) =
      some { live 60 0 1 with out := ⟨true, none, none, none⟩ } := by decide +kernel
/-- V2 row 13: with one segment id 20 is ordinary and its segment field is not read. -/
theorem test_receive_id_20_single_segment :
    pick (fun t => (t.expectedPacketId, t.out.pktEvt, t.fb.read 3200)) (exec (.rxReceive (pkt 0x30 0x14 0x55)) (live 60 20 1)) =
      some (21, true, some 0x55) := by decide +kernel
/-- V2 row 21: the id is tested before the segment. -/
theorem test_receive_id_before_segment :
    pick (fun t => (t.resyncing, t.expectedPacketId)) (exec (.rxReceive (pkt 0x20 0x14 0x55)) (live 61 79 2)) =
      some (true, 79) := by decide +kernel
/-- V3 row 2. -/
theorem test_drop :
    pick id (exec .rxDrop { live 60 3 1 with resyncing := true }) =
      some { live 60 3 1 with resyncing := true, out := ⟨true, none, none, none⟩ } := by decide +kernel
/-- V3 row 1. -/
theorem test_unarmed :
    pick id (step { State.reset with schedule := [.packet (pkt 0 0 0).bytes] }) = some State.reset := by decide +kernel
/-- V4 row 1. -/
theorem test_sc_start :
    pick (fun t => (t.armed, t.quietCnt, t.scState, t.resyncing, t.capturing, t.expectedPacketId))
      (exec .scStart { live 60 3 1 with resyncing := true, quietCnt := 201 }) =
      some (false, 0, .quiet, true, true, 3) := by decide +kernel
/-- V4 rows 2 and 3. -/
theorem test_sc_start_not_enabled :
    refusal (exec .scStart { live 60 3 1 with resyncing := true, capturing := false }) = some (.notEnabled "SC.START") ∧
    refusal (exec .scStart (live 60 3 1)) = some (.notEnabled "SC.START") := by decide +kernel
/-- V4 rows 9 and 7: counting, saturated. -/
theorem test_sc_tick :
    pick (·.quietCnt) (exec .scTick { State.reset with scState := .quiet, quietCnt := 199 }) = some 200 ∧
    pick (·.quietCnt) (exec .scTick { State.reset with scState := .quiet, quietCnt := 201 }) = some 201 := by
  decide +kernel
/-- V4 row 5. -/
theorem test_sc_finish :
    pick (fun t => ((t.resyncing, t.expectedPacketId, t.expectedSegmentId), t.armed, t.scState, t.quietCnt, t.capturing))
      (exec .scFinish
        { live 60 3 1 with resyncing := true, armed := false, scState := .quiet, quietCnt := 201 }) =
      some ((false, 0, 1), true, .idle, 201, true) := by decide +kernel
/-- V4 row 6. -/
theorem test_sc_finish_not_enabled :
    refusal (exec .scFinish { State.reset with scState := .quiet, quietCnt := 200 }) = some (.notEnabled "SC.FINISH") := by
  decide +kernel
/-- V5 rows 7 and 6. -/
theorem test_set_geometry :
    pick (fun t => (t.out.rsp, t.packetsPerFrame, t.expectedPacketId, t.expectedSegmentId, t.faState))
      (exec (.cmdSetGeometry 80 60) { live 120 240 5 with capturing := false }) =
      some (some .ok, 60, 0, 1, .hunting) ∧
    pick id (exec (.cmdSetGeometry 160 120) (live 60 3 1)) =
      some { live 60 3 1 with out := ⟨false, some .busy, none, none⟩ } := by decide +kernel
/-- V5 row 8. -/
theorem test_set_format :
    pick (fun t => (t.out.rsp, t.fmtSel)) (exec (.cmdSetFormat false) (live 60 3 1)) = some (some .ok, false) := by
  decide +kernel
/-- V5 rows 1 and 4. -/
theorem test_capture :
    pick (·.out.rsp) (exec .cmdCaptureStart State.reset) = some (some .notConfigured) ∧
    pick (fun t => (t.out.rsp, t.capturing, t.expectedPacketId, t.expectedSegmentId, t.resyncing))
      (exec .cmdCaptureStart { State.reset with hRes := 80, vRes := 60, fmtSel := true }) =
      some (some .ok, true, 0, 1, true) := by decide +kernel
/-- V5 rows 13 and 14: both values of `CAPTURE_FORCES_RESYNC`. -/
theorem test_capture_forces_resync :
    pick (fun t => (t.capturing, t.expectedPacketId, t.resyncing, t.recoveryCanStart))
      (exec .cmdCaptureStart
        { live 60 60 2 with capturing := false, params := { Params.initial with captureForcesResync := true } }) =
      some (true, 0, true, true) ∧
    pick (fun t => (t.capturing, t.expectedPacketId, t.resyncing, t.armed))
      (exec .cmdCaptureStart { live 60 60 2 with capturing := false }) = some (true, 0, false, true) := by decide +kernel
/-- V5 row 9. -/
theorem test_reserved :
    pick id (exec .cmdReserved (live 60 3 1)) =
      some { live 60 3 1 with out := ⟨false, some .illegalCommand, none, none⟩ } := by decide +kernel
/-- V5 rows 10 and 11. -/
theorem test_status :
    pick (·.out.stData) (exec (.stRead 10) (live 61 0 1)) = some (some 240) ∧
    pick (·.out.stData) (exec (.stRead 10) (live 60 0 1)) = some (some 60) := by decide +kernel
/-- 10_state.md R33: `fa_state` COMPLETE reads 2, select 12 reads 0. -/
theorem test_status_state :
    pick (·.out.stData) (exec (.stRead 11) (live 60 60 2)) = some (some 2) ∧
    pick (·.out.stData) (exec (.stRead 12) (live 60 60 2)) = some (some 0) := by decide +kernel
/-- V6 row 3: sample 81 of row 1 = `pay(1)`. -/
theorem test_frame_read :
    pick (·.out.fbData) (exec (.fbRead 81) { live 60 60 2 with fb := Memory.writeRow [] 1 (pay 1) }) =
      some (some 0x0304) := by decide +kernel
/-- 20_memory.md R55; 93_implementation_defined.md U7. -/
theorem test_frame_read_above :
    refusal (exec (.fbRead 19200) (live 60 60 2)) = some (.noSuchSample 19200) := by decide +kernel
/-- 10_state.md R38. -/
theorem test_reset :
    pick (fun t => (t.fb, t.resyncing, t.armed, t.expectedSegmentId)) (exec .reset (live 61 80 2)) =
      some ([], true, false, 1) := by decide +kernel

/-! ## A table word is what the next step runs -/

theorem test_with_fetch_word_normal :
    pick (fun t => (t.expectedPacketId, t.fb.read 159, t.out.pktEvt)) (step (State.reset.withFetchWord 32 0)) =
      some (1, some 0, true) := by decide +kernel
theorem test_with_fetch_word_special :
    pick (fun t => (t.packetsPerFrame, t.expectedPacketId)) (step (State.reset.withFetchWord 32 0x10140000)) =
      some (240, 0) := by decide +kernel
theorem test_with_fetch_word_command :
    pick (fun t => (t.hRes, t.vRes, t.out.rsp)) (step (State.reset.withFetchWord 40 (0x003C0050 * 4))) =
      some (80, 60, some .ok) := by decide +kernel

/-! ## Witnesses: states and operands that meet an obligation's hypotheses -/

/-- A core with `epid` rows of zeros accepted, `cap` as given. -/
def filled (v : BitVec 16) (epid : BitVec 8) (eseg : BitVec 3) (cap : Bool) : State :=
  { live v epid eseg with
    capturing := cap, fb := cellsFrom 0 (List.replicate (160 * epid.toNat) 0#8) }

theorem paramsDefault : Params.initial.wf = true := by decide

theorem filled_invariants (v : BitVec 16) (epid : BitVec 8) (eseg : BitVec 3) (cap : Bool)
    (h : epid ≤ (filled v epid eseg cap).packetsPerFrame ∧ eseg.toNat = 1 + epid.toNat / 60 ∧
      (cap = true → epid < (filled v epid eseg cap).packetsPerFrame)) : Invariants (filled v epid eseg cap) := by
  have hle : epid.toNat ≤ 240 := by
    have h1 : epid.toNat ≤ (filled v epid eseg cap).packetsPerFrame.toNat := h.1
    obtain h2 | h2 := packetsPerFrame_cases (filled v epid eseg cap) <;> rw [h2] at h1 <;> simp at h1 <;> omega
  refine ⟨h.1, h.2.1, (by intro hq; cases hq), (by intro hr; cases hr), h.2.2, Nat.zero_le _, ?_, ?_, paramsDefault⟩
  · intro a ha
    have ha' : a < 160 * epid.toNat := ha
    have hr := read_cellsFrom 0 a (List.replicate (160 * epid.toNat) 0#8)
    simp only [filled]
    rw [hr]
    simp
    omega
  · have hw := wfFrom_cellsFrom_append 0 (List.replicate (160 * epid.toNat) 0#8) [] (by simp; omega) rfl
    simpa [filled, Memory.wf] using hw

/-- A core in the quiet interval of its first recovery. -/
def quietCore (cnt : Nat) : State :=
  { State.reset with
    hRes := 80, vRes := 60, fmtSel := true, capturing := true, scState := .quiet, quietCnt := cnt }

theorem quietCore_invariants (cnt : Nat) (h : cnt ≤ 201) : Invariants (quietCore cnt) := by
  have h0 : (quietCore 0).expectedPacketId < (quietCore 0).packetsPerFrame := by decide
  have h1 : (1#3).toNat = 1 + (0#8).toNat / 60 := by decide
  exact ⟨BitVec.le_of_lt h0, h1, fun _ => ⟨rfl, rfl, rfl⟩, fun _ => h0, fun _ => h0, h,
    fun a ha => absurd ha (Nat.not_lt_zero a), rfl, paramsDefault⟩

/-- COMPLETE, one segment: 60 rows, the capture ended. -/
def completeCore : State := filled 60 60 2 false

theorem completeCore_invariants : Invariants completeCore := filled_invariants 60 60 2 false (by decide)

theorem witness_ResetCoreWaitsForACapture :
    (State.reset.resyncing = true ∧ State.reset.armed = false ∧ State.reset.capturing = false ∧
      State.reset.scState = .idle ∧ exec .scTick State.reset = .next State.reset) ∧
    ∃ t, exec .cmdCaptureStart { State.reset with hRes := 80, vRes := 60, fmtSel := true } = .next t ∧
      t.capturing = true :=
  ⟨⟨rfl, rfl, rfl, rfl, rfl⟩, _, rfl, rfl⟩

/-- At the boundary, 61 and 60 rows. -/
theorem witness_PacketsPerFrameFollowsTheRows :
    (60 < (live 61 0 1).vRes.toNat ∧ (live 61 0 1).packetsPerFrame = 240) ∧
    ((live 60 0 1).vRes.toNat ≤ 60 ∧ (live 60 0 1).packetsPerFrame = 60) := by decide

theorem witness_AssemblerStateFollowsItsPriority :
    ((State.reset).resyncing = true ∧ State.reset.faState = .resyncing) ∧
    ((live 60 60 2).resyncing = false ∧ (live 60 60 2).expectedPacketId = (live 60 60 2).packetsPerFrame) ∧
    ((live 60 0 1).expectedPacketId ≠ (live 60 0 1).packetsPerFrame ∧ (live 60 0 1).expectedPacketId = 0#8) ∧
    ((live 60 59 1).expectedPacketId ≠ (live 60 59 1).packetsPerFrame ∧ (live 60 59 1).expectedPacketId ≠ 0#8) := by
  decide

/-- Each clause: `RX.RECEIVE`, a normal packet of id 20, which fits the single-segment geometry only, and a port. -/
theorem witness_EncodedInstructionDecodesBack (pl : Payload) :
    (∃ x, encode (.rxReceive ⟨0, 0, 0, 0, pl⟩) = some x ∧ (Instr.rxReceive ⟨0, 0, 0, 0, pl⟩).wf = true) ∧
    (∃ x, encode (.pktNormal 20 7 pl) = some x ∧ (Instr.pktNormal 20 7 pl).wf = true ∧
      (PacketClass.normal 20 7).fits 60 = true ∧ (PacketClass.normal 20 7).fits 240 = false) ∧
    (encode (.fbRead 19199) = some (.frameRead 19199) ∧ (Instr.fbRead 19199).wf = true ∧
      ∀ bytes, Stimulus.frameRead 19199 ≠ .packet bytes) :=
  ⟨⟨_, rfl, rfl⟩, ⟨_, rfl, (by decide : decide ((20#12) ≤ 59#12) = true), by decide, by decide⟩, rfl, by decide,
    fun _ h => by cases h⟩

theorem witness_DecodedInstructionIsWellFormed (pl : Payload) :
    decode true (.frameRead 19199) = .ok (.fbRead 19199) ∧
    decodeRow 60 (.packet (0x0E :: 0xFF :: 0 :: 0 :: pl.toList)) = .ok (.pktOor 3839 0 pl) :=
  ⟨rfl, decode_row_of 0x0E 0xFF 0 0 pl _ (c := .oor 3839 0) (by decide +kernel)⟩

/-- The two rejections at their boundaries. -/
theorem witness_DecoderRejectsOnlyWhatDoesNotExist :
    decode true (.packet (List.replicate 163 0)) = .error (.badPacketLength 163) ∧
    decode true (.packet (List.replicate 165 0)) = .error (.badPacketLength 165) ∧
    decode true (.frameRead 19200) = .error (.noSuchSample 19200) :=
  ⟨by simp only [decode]; rw [parsePacket_badLength (by rw [List.length_replicate]; decide), List.length_replicate],
    by simp only [decode]; rw [parsePacket_badLength (by rw [List.length_replicate]; decide), List.length_replicate], rfl⟩

theorem witness_StepRunsTheDecodedInstruction :
    decode (live 60 0 1).armed .tick = .ok .scTick ∧
    decode (live 60 0 1).armed (.frameRead 19200) = .error (.noSuchSample 19200) ∧
    { live 60 0 1 with schedule := [.tick] }.schedule = .tick :: [] := ⟨rfl, rfl, rfl⟩

theorem witness_UnscheduledStepIsRecoveryOrTick :
    (State.recoveryCanStart { live 60 3 1 with resyncing := true } = true) ∧
    ((quietCore 201).recoveryCanStart = false ∧ (quietCore 201).recoveryCanFinish = true) ∧
    ((quietCore 200).recoveryCanStart = false ∧ (quietCore 200).recoveryCanFinish = false) ∧
    (live 60 3 1).schedule = [] ∧ (quietCore 200).schedule = [] := by decide

theorem witness_StepKeepsParametersAndConsumesOneStimulus :
    step { State.reset with schedule := [.tick, .hardwareReset] } =
      .next { State.reset with schedule := [.hardwareReset] } := rfl

theorem witness_ReceivedPacketRunsItsRow :
    ((live 60 3 1).armed = true ∧ (live 60 3 1).resyncing = false) ∧
    ({ live 60 3 1 with resyncing := true }.armed = true) ∧ State.reset.armed = false := ⟨⟨rfl, rfl⟩, rfl, rfl⟩

theorem witness_EveryReceivedPacketCompletes :
    Invariants (filled 61 239 4 true) ∧ (filled 61 239 4 true).armed = true :=
  ⟨filled_invariants _ _ _ _ (by decide), rfl⟩

theorem witness_DroppedPacketChangesNothing :
    { live 60 3 1 with resyncing := true }.armed = true ∧ { live 60 3 1 with resyncing := true }.resyncing = true :=
  ⟨rfl, rfl⟩

theorem witness_UnarmedPacketIsNotReceived (p : Packet) :
    { State.reset with schedule := [.packet p.bytes] }.armed = false ∧
    { State.reset with schedule := [.packet p.bytes] }.schedule = .packet p.bytes :: [] := ⟨rfl, rfl⟩

/-- Each reason by itself: unarmed, resync pending, a class the geometry does not have, an id out of the row's range. -/
theorem witness_PacketRowOutsideItsGuardIsAbsent :
    State.reset.armed = false ∧ { live 60 3 1 with resyncing := true }.resyncing = true ∧
    (live 60 3 1).packetsPerFrame ≠ 240#8 ∧ 60 ≤ (60#12).toNat ∧
    ((20#12).toNat = 20 ∧ (live 61 3 1).packetsPerFrame = 240#8) ∧
    (59#12).toNat ≤ 59 ∧ 3840 ≤ (3840#12).toNat ∧ (live 60 3 1).resyncing = false ∧
    (live 60 3 1).armed = true := by decide

theorem witness_DiscardPacketChangesNothing :
    (live 61 20 1).armed = true ∧ (live 61 20 1).resyncing = false := ⟨rfl, rfl⟩

theorem witness_CompleteFrameIgnoresPackets :
    (live 61 240 5).armed = true ∧ (live 61 240 5).faState = .complete ∧
    (PacketClass.special 3).fits (live 61 240 5).packetsPerFrame = true := by decide

theorem witness_HuntingIgnoresOtherIds :
    Invariants (filled 60 0 1 true) ∧ (filled 60 0 1 true).expectedPacketId = 0#8 ∧
    (PacketClass.normal 1 0).fits (filled 60 0 1 true).packetsPerFrame = true ∧
    fieldsOf (.normal 1 0) = some (1, 0) ∧ (1 : BitVec 12) ≠ 0 :=
  ⟨filled_invariants _ _ _ _ (by decide), rfl, by decide, rfl, by decide⟩

/-- At both ends of the range, and a class of each kind. -/
theorem witness_MismatchOutsideHuntingLosesSync :
    (0 < (live 60 1 1).expectedPacketId.toNat ∧ (live 60 59 1).expectedPacketId.toNat < (live 60 59 1).packetsPerFrame.toNat) ∧
    ((PacketClass.normal 0 0).fits 60 = true ∧ (0 : BitVec 12).toNat ≠ (live 60 1 1).expectedPacketId.toNat % 60) ∧
    ((PacketClass.special 2).fits 240 = true ∧ (20 : BitVec 12).toNat ≠ (live 61 79 2).expectedPacketId.toNat % 60) ∧
    ((PacketClass.oor 60 0).fits 240 = true ∧ (60 : BitVec 12).toNat ≠ (live 61 60 2).expectedPacketId.toNat % 60) := by
  decide

theorem witness_WrongFirstSegmentReturnsToHunting :
    Invariants (filled 61 20 1 true) ∧ (filled 61 20 1 true).packetsPerFrame = 240#8 ∧
    (filled 61 20 1 true).expectedPacketId = 20#8 ∧ (0 : BitVec 3) ≠ 1#3 :=
  ⟨filled_invariants _ _ _ _ (by decide), by decide, rfl, by decide⟩

/-- Each of the three later segments. -/
theorem witness_WrongLaterSegmentLosesSync :
    Invariants (filled 61 80 2 true) ∧ Invariants (filled 61 140 3 true) ∧ Invariants (filled 61 200 4 true) ∧
    (filled 61 200 4 true).packetsPerFrame = 240#8 ∧ (200#8).toNat ∈ [80, 140, 200] ∧
    (1 : BitVec 3) ≠ (filled 61 200 4 true).expectedSegmentId :=
  ⟨filled_invariants _ _ _ _ (by decide), filled_invariants _ _ _ _ (by decide), filled_invariants _ _ _ _ (by decide),
    by decide, by decide, by decide⟩

/-- Both clauses, the ids at both ends of their range. -/
theorem witness_OutOfRangePacketIsAlwaysAMismatch (pl : Payload) :
    Invariants (filled 60 0 1 true) ∧ Invariants (filled 61 60 2 true) ∧ (Instr.pktOor 60 0 pl).wf = true ∧
    (Instr.pktOor 3839 7 pl).wf = true ∧ (filled 60 0 1 true).expectedPacketId = 0#8 ∧
    (filled 61 60 2 true).expectedPacketId ≠ 0#8 ∧
    (filled 61 60 2 true).expectedPacketId.toNat < (filled 61 60 2 true).packetsPerFrame.toNat :=
  ⟨filled_invariants _ _ _ _ (by decide), filled_invariants _ _ _ _ (by decide), rfl, rfl, rfl, by decide, by decide⟩

/-- The first row, the last row of either geometry, and a special packet. -/
theorem witness_MatchingPacketIsAccepted :
    ((PacketClass.normal 0 0).fits (live 60 0 1).packetsPerFrame = true ∧ fieldsOf (.normal 0 0) = some (0, 0)) ∧
    ((PacketClass.normal 59 0).fits (live 60 59 1).packetsPerFrame = true ∧
      (live 60 59 1).expectedPacketId.toNat < (live 60 59 1).packetsPerFrame.toNat) ∧
    ((PacketClass.normal 59 7).fits (live 61 239 4).packetsPerFrame = true ∧
      (59 : BitVec 12).toNat = (live 61 239 4).expectedPacketId.toNat % 60) ∧
    ((PacketClass.special 4).fits (live 61 200 4).packetsPerFrame = true ∧
      (20 : BitVec 12).toNat = (live 61 200 4).expectedPacketId.toNat % 60 ∧
      (4 : BitVec 3) = (live 61 200 4).expectedSegmentId) := by decide

theorem witness_OnlyTheLastAcceptCompletesAFrame :
    (live 60 59 1).faState ≠ .complete ∧
    pick (·.faState) (exec (.pktNormal 59 0 (pay 0)) (live 60 59 1)) = some .complete := by decide +kernel

/-- A whole frame of four segments, the packets written out as a function of their place. -/
theorem witness_OrderedStreamFillsTheFrame :
    let p : Nat → Packet := fun k => packetOf (BitVec.ofNat 12 (k % 60)) (BitVec.ofNat 3 (1 + k / 60)) (pay k)
    Invariants (filled 61 0 1 true) ∧ (filled 61 0 1 true).faState = .hunting ∧
    240 ≤ (filled 61 0 1 true).packetsPerFrame.toNat ∧
    ∀ k, k < 240 → (packetId (p k).b0 (p k).b1).toNat = k % 60 ∧
      (k % 60 = 20 → (segmentId (p k).b0).toNat = 1 + k / 60) :=
  ⟨filled_invariants _ _ _ _ (by decide), by decide, by decide, by decide +kernel⟩

/-- Packets that differ in bit 7 and in the checksum bytes. -/
theorem witness_IgnoredHeaderBitsChangeNoStep :
    (pkt 0xB0 0x14 3).b0.toNat % 128 = (⟨0x30, 0x14, 0x12, 0x34, pay 3⟩ : Packet).b0.toNat % 128 ∧
    (pkt 0xB0 0x14 3) ≠ ⟨0x30, 0x14, 0x12, 0x34, pay 3⟩ := by decide +kernel

/-- Both alternatives: one segment, and another id than 20 with four. -/
theorem witness_SegmentFieldIsReadOfSpecialPacketsOnly :
    (pkt 0x30 0x14 3).b0.toNat % 16 = (pkt 0x10 0x14 3).b0.toNat % 16 ∧ (live 60 20 1).packetsPerFrame = 60#8 ∧
    packetId (pkt 0x70 0x13 3).b0 (pkt 0x70 0x13 3).b1 ≠ 20#12 := by decide +kernel

/-- Either cause, and a packet that is none. -/
theorem witness_SyncLostHasExactlyTwoCauses :
    Invariants (filled 61 79 2 true) ∧ Invariants (filled 61 80 2 true) ∧
    ((PacketClass.special 2).fits 240 = true ∧ fieldsOf (.special 2) = some (20, 2) ∧ (20 : BitVec 12).toNat ≠ 79 % 60) ∧
    ((filled 61 80 2 true).expectedPacketId.toNat % 60 = 20 ∧ (3 : BitVec 3) ≠ (filled 61 80 2 true).expectedSegmentId) :=
  ⟨filled_invariants _ _ _ _ (by decide), filled_invariants _ _ _ _ (by decide), by decide, by decide⟩

theorem witness_RecoveryStartStopsReception :
    State.recoveryCanStart { live 60 3 1 with resyncing := true } = true ∧ (live 60 3 1).recoveryCanStart = false := by
  decide

/-- The tick at the boundary, 200 and 201, and outside `SC_QUIET`. -/
theorem witness_TickCountsTheQuietInterval :
    ((quietCore 200).scState = .quiet ∧ (quietCore 200).quietCnt < (quietCore 200).params.quietTicks) ∧
    ¬((quietCore 201).quietCnt < (quietCore 201).params.quietTicks) ∧ State.reset.scState ≠ .quiet := by decide

theorem witness_RecoveryFinishRestartsReception :
    ((quietCore 201).scState = .quiet ∧ (quietCore 201).quietCnt = (quietCore 201).params.quietTicks) ∧
    (quietCore 200).quietCnt ≠ (quietCore 200).params.quietTicks := by decide

theorem witness_EnabledRecoveryStaysEnabled :
    (State.recoveryCanStart { live 60 3 1 with resyncing := true } = true ∧
      ∃ t, exec .rxDrop { live 60 3 1 with resyncing := true } = .next t) ∧
    ((quietCore 201).recoveryCanFinish = true ∧ ∃ t, exec .scTick (quietCore 201) = .next t) :=
  ⟨⟨by decide, _, rfl⟩, by decide, _, rfl⟩

theorem witness_NoPacketIsReceivedInTheQuietInterval (p : Packet) :
    Invariants { quietCore 7 with schedule := [.packet p.bytes] } ∧ (quietCore 7).scState = .quiet := by
  have h := quietCore_invariants 7 (by decide)
  exact ⟨⟨h.1, h.2, h.3, h.4, h.5, h.6, h.7, h.8, h.9⟩, rfl⟩

/-- One whole recovery with `QUIET_TICKS` = 2, from `SC_IDLE` unarmed with an old count, and from `SC_QUIET` with nothing
counted. -/
theorem witness_RecoveryNeverFinishesEarly :
    let prm : Params := { quietMin := 1000, tTick := 1000, quietTicks := 2, qw := 8, captureForcesResync := false }
    let s : State := { live 60 0 1 with resyncing := true, armed := false, quietCnt := 2, params := prm }
    let q : State := { quietCore 0 with params := prm }
    (s.armed = false ∧ s.scState = .idle ∧ prm.wf = true ∧ (s.scState = .quiet → s.quietCnt = 0) ∧
      pick (·.armed) (execAll [.scStart, .scTick, .scTick, .scFinish] s) = some true) ∧
    (q.armed = false ∧ q.scState = .quiet ∧ q.quietCnt = 0 ∧ prm.wf = true ∧
      pick (·.armed) (execAll [.scTick, .scTick, .scFinish] q) = some true) := by decide +kernel

theorem witness_PendingRecoveryRunsToItsEnd :
    { live 60 3 1 with resyncing := true }.schedule = [] ∧
    State.recoveryCanStart { live 60 3 1 with resyncing := true } = true := by decide

theorem witness_SetGeometryWritesTheResolution :
    { live 60 3 1 with capturing := false }.capturing = false ∧ (live 60 3 1).capturing = true := ⟨rfl, rfl⟩

/-- The three outcomes; each of the three missing pieces of configuration alone. -/
theorem witness_CaptureStartBeginsACapture :
    ({ live 60 0 1 with hRes := 0 }.hRes = 0#16 ∧ (live 0 0 1).vRes = 0#16 ∧
      { live 60 0 1 with fmtSel := false }.fmtSel = false) ∧
    ((live 60 0 1).hRes ≠ 0#16 ∧ (live 60 0 1).vRes ≠ 0#16 ∧ (live 60 0 1).fmtSel = true ∧
      (live 60 0 1).capturing = true) ∧
    completeCore.capturing = false := ⟨⟨rfl, rfl, rfl⟩, ⟨by decide, by decide, rfl, rfl⟩, rfl⟩

theorem witness_RejectedCommandChangesNothing :
    ∃ t, exec .cmdReserved State.reset = .next t ∧ t.out.rsp = some .illegalCommand ∧
      Response.illegalCommand ≠ .ok := ⟨_, rfl, rfl, by decide⟩

/-- Select 9 with a count that fits, and the clause's condition met by another select whatever the count. -/
theorem witness_StatusReadShowsTheSelectedVariable :
    (quietCore 201).quietCnt < 65536 ∧ ((10#4 = 9#4) → (quietCore 65536).quietCnt < 65536) := by decide

/-- The last sample of either geometry. -/
theorem witness_CompleteFrameReadsBack :
    (Invariants completeCore ∧ completeCore.faState = .complete ∧
      (4799 : BitVec 15).toNat < 80 * completeCore.packetsPerFrame.toNat) ∧
    (Invariants (filled 61 240 5 false) ∧ (filled 61 240 5 false).faState = .complete ∧
      (19199 : BitVec 15).toNat < 80 * (filled 61 240 5 false).packetsPerFrame.toNat) :=
  ⟨⟨completeCore_invariants, by decide, by decide⟩, filled_invariants _ _ _ _ (by decide), by decide, by decide⟩

theorem witness_FrameReadHasNoSideEffect :
    (19199 : BitVec 15).toNat < 19200 ∧ 19200 ≤ (19200 : BitVec 15).toNat := by decide

theorem witness_EveryStepKeepsTheInvariants : Invariants (quietCore 200) ∧ ∃ t, step (quietCore 200) = .next t :=
  ⟨quietCore_invariants 200 (by decide), _, rfl⟩

/-- From a state with counter 0: recovery ends, a packet is accepted, and one row is below the counter; and a state
that is COMPLETE. -/
theorem witness_EveryInterleavingKeepsTheInvariants :
    (Invariants completeCore ∧ execAll [] completeCore = .next completeCore ∧ completeCore.faState = .complete) ∧
    Invariants (quietCore 200) ∧ (quietCore 200).expectedPacketId = 0#8 ∧ ∃ t, execAll [.scTick, .scFinish, .rxReceive (pkt 0 0 0)] (quietCore 200) = .next t ∧
      0 < t.expectedPacketId.toNat :=
  ⟨⟨completeCore_invariants, rfl, by decide⟩, quietCore_invariants 200 (by decide), rfl, _, rfl, by decide⟩

/-- What sets `resyncing` and what clears it. -/
theorem witness_OnlyRecoveryClearsResyncing :
    (∃ t, exec .scFinish (quietCore 201) = .next t ∧ (quietCore 201).resyncing = true ∧ t.resyncing = false) ∧
    (∃ t, exec .reset (live 60 3 1) = .next t ∧ (live 60 3 1).resyncing = false ∧ t.resyncing = true) :=
  ⟨⟨_, rfl, rfl, rfl⟩, _, rfl, rfl, rfl⟩

theorem witness_OnlyRecoveryMovesArmed :
    (∃ t, exec .scFinish (quietCore 201) = .next t ∧ (quietCore 201).armed = false ∧ t.armed = true) ∧
    (∃ t, exec .scStart { live 60 3 1 with resyncing := true } = .next t ∧ t.armed = false) :=
  ⟨⟨_, rfl, rfl, rfl⟩, _, rfl, rfl⟩

theorem witness_CaptureEndsOnlyByCompletionOrReset :
    (∃ t, exec .cmdCaptureStart completeCore = .next t ∧ completeCore.capturing = false ∧ t.capturing = true) ∧
    (∃ t, exec .reset (live 60 3 1) = .next t ∧ (live 60 3 1).capturing = true ∧ t.capturing = false) :=
  ⟨⟨_, rfl, rfl, rfl⟩, _, rfl, rfl, rfl⟩

theorem witness_OnlyAcceptWritesTheFrameBuffer :
    ∃ t, exec (.pktNormal 3 0 (pay 0)) (live 60 3 1) = .next t ∧ agentOf (.pktNormal 3 0 (pay 0)) = .producer ∧
      (live 60 3 1).faState ≠ .complete ∧ t.expectedPacketId = 4 := ⟨_, rfl, rfl, by decide, rfl⟩

theorem witness_ProducerWritesOnlyItsOwn :
    ∃ t, exec .rxDrop { live 60 60 2 with resyncing := true } = .next t ∧ agentOf .rxDrop = .producer ∧
      t.resyncing = true ∧ (live 60 60 2).faState = .complete := ⟨_, rfl, rfl, rfl, by decide⟩

theorem witness_RecoveryWritesOnlyItsOwn :
    (∃ t, exec .scTick (quietCore 3) = .next t ∧ agentOf .scTick = .timebase ∧ t.quietCnt = 4) ∧
    (∃ t, exec .scFinish (quietCore 201) = .next t ∧ agentOf .scFinish = .recovery) :=
  ⟨⟨_, rfl, rfl, rfl⟩, _, rfl, rfl⟩

theorem witness_HostWritesOnlyItsOwn :
    ∃ t, exec (.cmdSetFormat false) (live 60 3 1) = .next t ∧ agentOf (.cmdSetFormat false) = .host ∧
      Instr.cmdSetFormat false ≠ .reset ∧ (live 60 3 1).capturing = true := ⟨_, rfl, rfl, by decide, rfl⟩

theorem witness_PacketEventMarksReceptionExactly :
    (∃ t, exec .rxUnarmed State.reset = .next t ∧ isReception .rxUnarmed = false) ∧
    ∃ t, exec (.pktDiscard (pay 0)) (live 60 3 1) = .next t ∧ isReception (.pktDiscard (pay 0)) = true :=
  ⟨⟨_, rfl, rfl⟩, _, rfl, rfl⟩

theorem witness_CompletedFrameStaysUntilTakenBack :
    Invariants completeCore ∧ completeCore.faState = .complete ∧
    (∀ i ∈ [Instr.scTick, .stRead 11, .rxReceive (pkt 0 0 0)], takesFrameBack i = false) ∧
    ∃ t, execAll [.scTick, .stRead 11, .rxReceive (pkt 0 0 0)] completeCore = .next t :=
  ⟨completeCore_invariants, by decide, by simp [takesFrameBack], _, rfl⟩

end Sys2Proof.Tests
end

section
/-! PROOFS. 00_scope.md: what a step fetches and runs, what every step keeps, and where a packet row is absent. -/

namespace Sys2Proof.Machine

/-! ## Fetch -/

/-- The instruction comes with the state whose oldest stimulus, if any, has been taken off (log 1). -/
theorem fetch_state {s u : State} {i : Instr} (h : fetch s = .ok (i, u)) :
    u = { s with schedule := s.schedule.tail } := by
  unfold fetch at h
  split at h
  · next hs => cases h; rw [hs, List.tail_nil, ← hs]
  · next x rest hs =>
    split at h
    · cases h
    · cases h; rw [hs, List.tail_cons]

theorem fetch_of_decode_ok {s : State} {x : Stimulus} {rest : List Stimulus} {i : Instr}
    (hs : s.schedule = x :: rest) (hd : decode s.armed x = .ok i) :
    fetch s = .ok (i, { s with schedule := rest }) := by
  simp only [fetch, hs, hd]

theorem fetch_of_decode_error {s : State} {x : Stimulus} {rest : List Stimulus} {e : DecodeReject}
    (hs : s.schedule = x :: rest) (hd : decode s.armed x = .error e) : fetch s = .error e := by
  simp only [fetch, hs, hd]

/-! ## Step -/

theorem step_of_fetch_ok {s u : State} {i : Instr} (h : fetch s = .ok (i, u)) : step s = exec i u := by
  simp only [step, h]

theorem step_of_fetch_error {s : State} {e : DecodeReject} (h : fetch s = .error e) :
    step s = .refused (.undecodable e) := by
  simp only [step, h]

/-- A step that answers a next state has run one row, in the state without the stimulus it took. -/
theorem step_next {s t : State} (h : step s = .next t) :
    ∃ i, fetch s = .ok (i, { s with schedule := s.schedule.tail }) ∧
      exec i { s with schedule := s.schedule.tail } = .next t := by
  cases hf : fetch s with
  | error e => rw [step_of_fetch_error hf] at h; cases h
  | ok iu =>
    obtain ⟨i, u⟩ := iu
    obtain rfl := fetch_state hf
    exact ⟨i, rfl, step_of_fetch_ok hf ▸ h⟩

/-- Settles O13: the decoder's answer decides what is fetched, and the fetched row is what the step runs. -/
theorem stepRunsTheDecodedInstruction : Obligations.StepRunsTheDecodedInstruction := by
  intro s x rest hs
  exact ⟨fun _ hd => step_of_fetch_ok (fetch_of_decode_ok hs hd),
    fun _ hd => step_of_fetch_error (fetch_of_decode_error hs hd)⟩

/-! ## What every step keeps -/

/-- The variables the Frame Assembler may write (42_frame_assembler.md R111; 60_exceptions.md R172); all the others stay. -/
theorem onPacket_frame {c : PacketClass} {pl : Payload} {s t : State} (h : onPacket c pl s = .next t) :
    t = { s with
      resyncing := t.resyncing, expectedPacketId := t.expectedPacketId,
      expectedSegmentId := t.expectedSegmentId, capturing := t.capturing, fb := t.fb } := by
  obtain ⟨-, rfl⟩ | ⟨pid, seg, -, -, ⟨-, rfl⟩ | ⟨-, -, rfl⟩ | ⟨-, -, -, rfl⟩⟩ := onPacket_next h
  · rfl
  · obtain ⟨-, e⟩ | ⟨-, e⟩ := idMismatch_cases s <;> rw [e] <;> rfl
  · obtain ⟨-, e⟩ | ⟨-, e⟩ := segmentMismatch_cases s <;> rw [e] <;> rfl
  · rfl

/-- No row writes a parameter or touches the schedule, hardware reset included (log 1, log 5). -/
theorem exec_keeps_params_schedule {i : Instr} {s t : State} (h : exec i s = .next t) :
    t.params = s.params ∧ t.schedule = s.schedule := by
  obtain ⟨o, rfl⟩ | ⟨-, -, c, pl, -, hn, -⟩ | ⟨hh, vv, -, -, rfl⟩ | ⟨b, -, rfl⟩ | ⟨-, -, -, rfl⟩ |
    ⟨-, -, rfl⟩ | ⟨-, rfl⟩ | ⟨-, -, rfl⟩ | ⟨-, rfl⟩ := exec_next h
  · exact ⟨rfl, rfl⟩
  · rw [onPacket_frame hn]; exact ⟨rfl, rfl⟩
  · exact ⟨rfl, rfl⟩
  · exact ⟨rfl, rfl⟩
  · exact ⟨rfl, rfl⟩
  · exact ⟨rfl, rfl⟩
  · obtain ⟨-, -, e⟩ | ⟨-, e⟩ := countTick_cases s <;> rw [e] <;> exact ⟨rfl, rfl⟩
  · exact ⟨rfl, rfl⟩
  · exact ⟨rfl, rfl⟩

/-- Settles O15: the step runs one row in the state without the stimulus it took, and no row writes either field. -/
theorem stepKeepsParametersAndConsumesOneStimulus : Obligations.StepKeepsParametersAndConsumesOneStimulus := by
  intro s t h
  obtain ⟨i, -, he⟩ := step_next h
  exact exec_keeps_params_schedule he

/-! ## Absent packet rows -/

theorem fits_special_eq_false {seg : BitVec 3} {ppf : BitVec 8} :
    (PacketClass.special seg).fits ppf = false ↔ ppf ≠ 240#8 := by
  simp [PacketClass.fits]

theorem fits_normal_eq_false {pid : BitVec 12} {seg : BitVec 3} {ppf : BitVec 8} :
    (PacketClass.normal pid seg).fits ppf = false ↔ 60 ≤ pid.toNat ∨ (pid.toNat = 20 ∧ ppf = 240#8) := by
  simp [PacketClass.fits, BitVec.le_def, BitVec.toNat_eq (x := pid), imp_iff_not_or, Nat.succ_le_iff]

theorem fits_oor_eq_false {pid : BitVec 12} {seg : BitVec 3} {ppf : BitVec 8} :
    (PacketClass.oor pid seg).fits ppf = false ↔ pid.toNat ≤ 59 ∨ 3840 ≤ pid.toNat := by
  simp [PacketClass.fits, BitVec.lt_def, BitVec.le_def, imp_iff_not_or, Nat.succ_le_iff]

/-- Each of the three conditions of a `PKT` row, when false, makes the row absent (00_scope.md R10; log 4, log 9). -/
theorem assemble_refused (m : String) {c : PacketClass} (pl : Payload) {s : State}
    (h : s.armed = false ∨ s.resyncing = true ∨ c.fits s.packetsPerFrame = false) :
    assemble m c pl s = .refused (.notEnabled m) := by
  have hg : ¬(s.assembling && c.fits s.packetsPerFrame) = true := by
    rcases h with h | h | h <;> simp [State.assembling, h]
  exact if_neg hg

theorem execRxDrop_refused {s : State} (h : s.armed = false ∨ s.resyncing = false) :
    execRxDrop s = .refused (.notEnabled "RX.DROP") := by
  have hg : ¬s.dropping = true := by
    rcases h with h | h <;> simp [State.dropping, h]
  exact if_neg hg

theorem execRxUnarmed_refused {s : State} (h : s.armed = true) :
    execRxUnarmed s = .refused (.notEnabled "RX.UNARMED") := if_pos h

/-- Settles O20: a `PKT` row's guard is the assembler's condition and the fit of its class, each class's fit is a range
of its operands, and the classifier gives only classes that fit. -/
theorem packetRowOutsideItsGuardIsAbsent : Obligations.PacketRowOutsideItsGuardIsAbsent := by
  refine ⟨fun pl s h => ?discard, fun seg pl s h => ?special, fun pid seg pl s h => ?normal,
    fun pid seg pl s h => ?oor, fun s h => execRxDrop_refused h, fun s h => execRxUnarmed_refused h,
    fun p ppf => classify_fits p.b0 p.b1 p.b2 p.b3 ppf⟩
  case discard => exact assemble_refused _ pl (h.imp_right .inl)
  case special => exact assemble_refused _ pl (h.imp_right (.imp_right fits_special_eq_false.mpr))
  case normal => exact assemble_refused _ pl (h.imp_right (.imp_right fits_normal_eq_false.mpr))
  case oor => exact assemble_refused _ pl (h.imp_right (.imp_right fits_oor_eq_false.mpr))

end Sys2Proof.Machine
end

section
/-! PROOFS. 10_state.md: the derived values, the invariants of R37 over steps and runs, the reset state, the status
port, and what sets and clears each variable. -/

namespace Sys2Proof.Machine

/-! ## Derived values -/

theorem packetsPerFrame_toNat (s : State) :
    s.packetsPerFrame.toNat = if 60 < s.vRes.toNat then 240 else 60 := by
  unfold State.packetsPerFrame
  exact apply_ite BitVec.toNat _ _ _

theorem packetsPerFrame_toNat_le (s : State) : s.packetsPerFrame.toNat ≤ 240 := by
  rw [packetsPerFrame_toNat]; split <;> omega

/-- Settles O4: the geometry as a number, by its comparison. -/
theorem packetsPerFrameFollowsTheRows : Obligations.PacketsPerFrameFollowsTheRows := by
  intro s
  rw [packetsPerFrame_toNat]
  exact ⟨fun h => if_pos h, fun h => if_neg (Nat.not_lt.mpr h)⟩

theorem faState_of_resyncing {s : State} (h : s.resyncing = true) : s.faState = .resyncing := if_pos h

theorem faState_of_not_resyncing {s : State} (h : s.resyncing = false) :
    s.faState = if s.expectedPacketId = s.packetsPerFrame then .complete
      else if s.expectedPacketId = 0#8 then .hunting else .filling :=
  if_neg (by simp [h])

theorem faState_eq_complete_iff (s : State) :
    s.faState = .complete ↔ s.resyncing = false ∧ s.expectedPacketId = s.packetsPerFrame := by
  cases hr : s.resyncing with
  | true => simp [faState_of_resyncing hr]
  | false =>
    rw [faState_of_not_resyncing hr]
    by_cases hc : s.expectedPacketId = s.packetsPerFrame
    · simp [hc]
    · rw [if_neg hc]; split <;> simp [hc]

theorem faState_ne_resyncing {s : State} (h : s.resyncing = false) : s.faState ≠ .resyncing := by
  rw [faState_of_not_resyncing h]; split_ifs <;> simp

/-- Settles O5: with no resync pending the two comparisons decide, in their order. -/
theorem assemblerStateFollowsItsPriority : Obligations.AssemblerStateFollowsItsPriority := by
  refine ⟨fun s => ⟨faState_of_resyncing, fun hr hc => ?_, fun hr hc h0 => ?_, fun hr hc h0 => ?_, ?_⟩,
    rfl, rfl, rfl, rfl⟩
  · rw [faState_of_not_resyncing hr, if_pos hc]
  · rw [faState_of_not_resyncing hr, if_neg hc, if_pos h0]
  · rw [faState_of_not_resyncing hr, if_neg hc, if_neg h0]
  · exact decide_eq_true_iff

/-! ## The invariants, kept by each operation -/

/-- Both counters at their start values: what is left to show of I1 to I8 is I3 and I7. -/
theorem Invariants.of_restarted {t : State} (hid : t.expectedPacketId = 0#8) (hseg : t.expectedSegmentId = 1#3)
    (hquiet : t.scState = .quiet → t.resyncing = true ∧ t.capturing = true ∧ t.armed = false)
    (hcnt : t.quietCnt ≤ t.params.quietTicks) (hfb : t.fb.wf = true) (hparams : t.params.wf = true) :
    Invariants t := by
  have hlt : t.expectedPacketId < t.packetsPerFrame := by
    rw [hid]; obtain h | h := packetsPerFrame_cases t <;> rw [h] <;> decide
  have hrows : rowAddress t.nextRow = 0 := by simp [State.nextRow, hid, rowAddress]
  exact {
    countInFrame := BitVec.le_of_lt hlt
    segmentOfCount := by rw [hid, hseg]; rfl
    quietMeansRecovering := hquiet
    resyncingMeansUnfinished := fun _ => hlt
    capturingMeansUnfinished := fun _ => hlt
    quietCntBounded := hcnt
    countedRowsWritten := fun a ha => by omega
    fbWf := hfb
    paramsWf := hparams }

/-- No invariant speaks of `fmt_sel`, of what is presented next or of the outputs. -/
theorem Invariants.update {s : State} (h : Invariants s) (b : Bool) (l : List Stimulus) (o : Outputs) :
    Invariants { s with fmtSel := b, schedule := l, out := o } :=
  ⟨h.countInFrame, h.segmentOfCount, h.quietMeansRecovering, h.resyncingMeansUnfinished,
    h.capturingMeansUnfinished, h.quietCntBounded, h.countedRowsWritten, h.fbWf, h.paramsWf⟩

theorem Invariants.emit {s : State} (h : Invariants s) (o : Outputs) : Invariants (s.emit o) :=
  h.update s.fmtSel s.schedule o

theorem Invariants.restartCounters {s : State} (h : Invariants s) : Invariants s.restartCounters :=
  .of_restarted rfl rfl h.quietMeansRecovering h.quietCntBounded h.fbWf h.paramsWf

/-- Below COMPLETE the counter is below the geometry (I1). -/
theorem Invariants.count_lt {s : State} (h : Invariants s) (hne : s.expectedPacketId ≠ s.packetsPerFrame) :
    s.expectedPacketId < s.packetsPerFrame :=
  BitVec.lt_of_le_ne h.countInFrame hne

theorem Invariants.raiseSyncLost {s : State} (h : Invariants s) (hne : s.expectedPacketId ≠ s.packetsPerFrame) :
    Invariants s.raiseSyncLost :=
  { h with
    quietMeansRecovering := fun hq => ⟨rfl, (h.quietMeansRecovering hq).2⟩
    resyncingMeansUnfinished := fun _ => h.count_lt hne }

theorem Invariants.beginQuiet {s : State} (h : Invariants s) (hr : s.resyncing = true) (hc : s.capturing = true) :
    Invariants s.beginQuiet :=
  { h with
    quietMeansRecovering := fun _ => ⟨hr, hc, rfl⟩
    quietCntBounded := Nat.zero_le _ }

theorem Invariants.countTick {s : State} (h : Invariants s) : Invariants s.countTick := by
  obtain ⟨-, hlt, e⟩ | ⟨-, e⟩ := countTick_cases s <;> rw [e]
  · exact { h with quietCntBounded := hlt }
  · exact h

theorem advancedId_toNat {s : State} (h : s.nextRow < 240) : s.advancedId.toNat = s.expectedPacketId.toNat + 1 := by
  have h' : s.expectedPacketId.toNat < 240 := h
  simp only [State.advancedId, BitVec.toNat_add, BitVec.toNat_ofNat]
  omega

/-- I2 over an accept step: the segment counter steps when the new count is a multiple of 60, and 5 is its largest
value, so it does not wrap. -/
theorem Invariants.segmentOfCount_accepted {s : State} (h : Invariants s) (hrow : s.nextRow < 240) (pl : Payload) :
    (s.accepted pl).expectedSegmentId.toNat = 1 + (s.accepted pl).expectedPacketId.toNat / 60 := by
  have hseg := h.segmentOfCount
  have hid : s.expectedPacketId.toNat < 240 := hrow
  have hmod : s.advancedId % 60#8 = 0#8 ↔ (s.expectedPacketId.toNat + 1) % 60 = 0 := by
    rw [BitVec.toNat_eq, BitVec.toNat_umod, advancedId_toNat hrow]; rfl
  rw [accepted_expectedSegmentId, accepted_expectedPacketId, advancedId_toNat hrow]
  split
  · next hm =>
    rw [hmod] at hm
    rw [BitVec.toNat_add, hseg, BitVec.toNat_ofNat]
    omega
  · next hm =>
    rw [hmod] at hm
    omega

/-- I8 over an accept step: the written row joins the counted ones. -/
theorem Invariants.countedRowsWritten_accepted {s : State} (h : Invariants s) (hrow : s.nextRow < 240) (pl : Payload) :
    ∀ a, a < rowAddress (s.accepted pl).nextRow → ((s.accepted pl).fb.read a).isSome = true := by
  intro a ha
  have hnext : (s.accepted pl).nextRow = s.nextRow + 1 := advancedId_toNat hrow
  rw [accepted_fb, Memory.read_writeRow]
  split
  · next hin =>
    have hlen : a - rowAddress s.nextRow < pl.toList.length := by rw [Vector.length_toList]; omega
    rw [List.getElem?_eq_getElem hlen]; rfl
  · next hout =>
    refine h.countedRowsWritten a ?_
    simp only [hnext, rowAddress, Config.payloadBytes] at ha hout ⊢
    omega

/-- A packet is accepted only with reception armed and no resync pending, so I3 and I5 are vacuous after it; I6 holds
since the step that reaches the geometry ends the capture. -/
theorem Invariants.accepted {s : State} (h : Invariants s) (ha : s.armed = true) (hr : s.resyncing = false)
    (hne : s.expectedPacketId ≠ s.packetsPerFrame) (hrow : s.nextRow < 240) (pl : Payload) :
    Invariants (s.accepted pl) := by
  have hle : s.advancedId ≤ s.packetsPerFrame := by
    rw [BitVec.le_def, advancedId_toNat hrow]; exact h.count_lt hne
  exact {
    countInFrame := hle
    segmentOfCount := h.segmentOfCount_accepted hrow pl
    quietMeansRecovering := fun hq => by
      obtain ⟨-, -, hunarmed⟩ := h.quietMeansRecovering hq
      simp [ha] at hunarmed
    resyncingMeansUnfinished := fun hr' => by simp [hr] at hr'
    capturingMeansUnfinished := fun hc => by
      refine BitVec.lt_of_le_ne hle fun he => ?_
      rw [accepted_expectedPacketId, accepted_packetsPerFrame] at he
      simp [he] at hc
    quietCntBounded := h.quietCntBounded
    countedRowsWritten := h.countedRowsWritten_accepted hrow pl
    fbWf := Memory.wf_writeRow _ _ _ hrow h.fbWf
    paramsWf := h.paramsWf }

/-! ## The invariants over steps -/

/-- The four writes `FA.on_packet` can come to (42_frame_assembler.md R111), and that all but the first are below
COMPLETE. -/
theorem onPacket_writes {c : PacketClass} {pl : Payload} {s t : State} (h : onPacket c pl s = .next t) :
    t = s ∨ (s.expectedPacketId ≠ s.packetsPerFrame ∧
      (t = s.restartCounters ∨ t = s.raiseSyncLost ∨ (s.nextRow < 240 ∧ t = s.accepted pl))) := by
  obtain ⟨-, rfl⟩ | ⟨pid, seg, -, hne, ⟨-, rfl⟩ | ⟨-, -, rfl⟩ | ⟨-, -, hrow, rfl⟩⟩ := onPacket_next h
  · exact .inl rfl
  · obtain ⟨-, e⟩ | ⟨-, e⟩ := idMismatch_cases s <;> simp [e, hne]
  · obtain ⟨-, e⟩ | ⟨-, e⟩ := segmentMismatch_cases s <;> simp [e, hne]
  · exact .inr ⟨hne, .inr (.inr ⟨hrow, rfl⟩)⟩

theorem onPacket_keeps_invariants {c : PacketClass} {pl : Payload} {s t : State} (hs : Invariants s)
    (ha : s.armed = true) (hr : s.resyncing = false) (h : onPacket c pl s = .next t) : Invariants t := by
  obtain rfl | ⟨hne, rfl | rfl | ⟨hrow, rfl⟩⟩ := onPacket_writes h
  · exact hs
  · exact hs.restartCounters
  · exact hs.raiseSyncLost hne
  · exact hs.accepted ha hr hne hrow pl

/-- The host moves the counters only outside a capture, so not in the quiet interval (I3). -/
theorem Invariants.not_quiet {s : State} (h : Invariants s) (hc : s.capturing = false) : s.scState ≠ .quiet := by
  intro hq
  obtain ⟨-, hcap, -⟩ := h.quietMeansRecovering hq
  simp [hc] at hcap

/-- Every row keeps the invariants. -/
theorem exec_keeps_invariants {i : Instr} {s t : State} (hs : Invariants s) (h : exec i s = .next t) :
    Invariants t := by
  obtain ⟨o, rfl⟩ | ⟨ha, hr, c, pl, -, hn, -⟩ | ⟨hh, vv, -, hc, rfl⟩ | ⟨b, -, rfl⟩ | ⟨-, -, hc, rfl⟩ |
    ⟨-, hg, rfl⟩ | ⟨-, rfl⟩ | ⟨-, -, rfl⟩ | ⟨-, rfl⟩ := exec_next h
  · exact hs.emit o
  · exact onPacket_keeps_invariants (hs.emit ⟨true, none, none, none⟩) ha hr hn
  · exact .of_restarted rfl rfl (fun hq => absurd hq (hs.not_quiet hc)) hs.quietCntBounded hs.fbWf hs.paramsWf
  · exact hs.update b s.schedule _
  · exact .of_restarted rfl rfl (fun hq => absurd hq (hs.not_quiet hc)) hs.quietCntBounded hs.fbWf hs.paramsWf
  · simp only [State.recoveryCanStart, Bool.and_eq_true] at hg
    obtain ⟨⟨hr, hc⟩, -⟩ := hg
    exact (hs.beginQuiet hr hc).emit _
  · exact hs.countTick.emit _
  · exact .of_restarted rfl rfl nofun hs.quietCntBounded hs.fbWf hs.paramsWf
  · exact .of_restarted rfl rfl nofun (Nat.zero_le _) reset_fb_wf hs.paramsWf

/-- Settles O50: the step runs one row, and taking the stimulus off the schedule touches no invariant. -/
theorem everyStepKeepsTheInvariants : Obligations.EveryStepKeepsTheInvariants := by
  intro s t hs h
  obtain ⟨i, -, he⟩ := step_next h
  exact exec_keeps_invariants (hs.update s.fmtSel s.schedule.tail s.out) he

/-- Settles O49: the counters start at 0 and 1, `sc_state` is `SC_IDLE`, and the default parameters meet R7. -/
theorem resetStateMeetsTheInvariants : Obligations.ResetStateMeetsTheInvariants :=
  .of_restarted rfl rfl nofun (Nat.zero_le _) reset_fb_wf (by decide)

/-! ## The invariants over runs, and I8 in full -/

theorem execAll_keeps_invariants {is : List Instr} {s t : State} (hs : Invariants s) (h : execAll is s = .next t) :
    Invariants t := by
  induction is using List.reverseRecOn generalizing t with
  | nil => cases h; exact hs
  | append_singleton is j ih =>
    obtain ⟨u, hu, hj⟩ := execAll_concat h
    exact exec_keeps_invariants (ih hu) hj

/-- One more step that leaves the counter above an accepted row, and the row as it was, keeps its record. -/
theorem AcceptedSinceZero.concat {is before after : List Instr} {i j : Instr} {s t t' u v : State} {r : Nat}
    {pl : Payload} (hacc : AcceptedSinceZero is s t r before i after u v pl) (hj : exec j t = .next t')
    (hcount : r < t'.expectedPacketId.toNat)
    (hrow : ∀ k, k < 160 → t'.fb.read (160 * r + k) = t.fb.read (160 * r + k)) :
    AcceptedSinceZero (is ++ [j]) s t' r before i (after ++ [j]) u v pl := by
  have hlast : execAll [j] t = .next t' := by simp only [execAll, hj]
  have hrun : execAll (after ++ [j]) v = .next t' := execAll_append hacc.runAfter hlast
  refine { hacc with split := by simp [hacc.split], runAfter := hrun, kept := ?_, neverZeroAgain := ?_ }
  · intro k hk
    rw [hrow k hk, hacc.kept k hk]
  · intro mid rest w hsplit hw
    obtain rfl | ⟨rest', x, rfl⟩ := rest.eq_nil_or_concat
    · rw [List.append_nil] at hsplit
      rw [← hsplit, hrun] at hw
      cases hw
      exact hcount
    · rw [List.concat_eq_append, ← List.append_assoc] at hsplit
      obtain ⟨hsplit, -⟩ := List.append_inj' hsplit rfl
      exact hacc.neverZeroAgain mid rest' w hsplit hw

/-- The step that accepts a payload into the counter's row begins that row's record. -/
theorem acceptedSinceZero_of_accept {is : List Instr} {j : Instr} {s t t' : State} {pl : Payload}
    (hrun : execAll is s = .next t) (hj : exec j t = .next t') (hpl : payloadOf j = some pl)
    (hid : t'.expectedPacketId.toNat = t.nextRow + 1) (hfb : t'.fb = t.fb.writeRow t.nextRow pl) :
    AcceptedSinceZero (is ++ [j]) s t' t.nextRow is j [] t t' pl := by
  have hrow : ∀ k, (hk : k < 160) → t'.fb.read (160 * t.nextRow + k) = some pl[k] := by
    intro k hk
    rw [hfb]
    exact Memory.read_writeRow_inside t.fb t.nextRow pl k hk
  refine ⟨rfl, hrun, hj, rfl, hpl, rfl, hid, hrow, hrow, ?_⟩
  intro mid rest w hsplit hw
  obtain ⟨rfl, -⟩ := List.append_eq_nil_iff.mp hsplit.symm
  cases hw
  omega

/-- I8 in full, by induction on the run's last step: it zeroes the counter, or keeps it and the frame buffer, or accepts
one more row. -/
theorem acceptedSinceZero_of_run {is : List Instr} {s t : State} (h0 : s.expectedPacketId = 0#8)
    (h : execAll is s = .next t) :
    ∀ r, r < t.expectedPacketId.toNat →
      ∃ before i after u v pl, AcceptedSinceZero is s t r before i after u v pl := by
  induction is using List.reverseRecOn generalizing t with
  | nil => cases h; intro r hr; simp [h0] at hr
  | append_singleton is j ih =>
    obtain ⟨t₀, hrun, hj⟩ := execAll_concat h
    intro r hr
    have extend : r < t₀.expectedPacketId.toNat →
        (∀ k, k < 160 → t.fb.read (160 * r + k) = t₀.fb.read (160 * r + k)) →
        ∃ before i after u v pl, AcceptedSinceZero (is ++ [j]) s t r before i after u v pl := by
      intro hr₀ hrow
      obtain ⟨before, i, after, u, v, pl, hacc⟩ := ih hrun r hr₀
      exact ⟨before, i, after ++ [j], u, v, pl, hacc.concat hj hr hrow⟩
    obtain hz | ⟨hid, hfb⟩ | ⟨pl, hpl, hrow, hid, hfb⟩ := exec_counter hj
    · simp [hz] at hr
    · exact extend (hid ▸ hr) fun k _ => by rw [hfb]
    · have hid' : t.expectedPacketId.toNat = t₀.nextRow + 1 := hid ▸ advancedId_toNat hrow
      obtain hlt | rfl : r < t₀.nextRow ∨ r = t₀.nextRow := by omega
      · refine extend hlt fun k hk => ?_
        rw [hfb, Memory.read_writeRow_outside]
        simp only [rowAddress, Config.payloadBytes]
        omega
      · exact ⟨is, j, [], t₀, t, pl, acceptedSinceZero_of_accept hrun hj hpl hid' hfb⟩

/-- Settles O51: the invariants by induction on the run, and the record of each counted row. -/
theorem everyInterleavingKeepsTheInvariants : Obligations.EveryInterleavingKeepsTheInvariants := by
  intro is s t hs h
  refine ⟨execAll_keeps_invariants hs h, fun hc => ?_, fun h0 => acceptedSinceZero_of_run h0 h⟩
  obtain ⟨-, hid⟩ := (faState_eq_complete_iff t).mp hc
  exact hid

/-! ## The reset state -/

/-- A read without a meaning returns the free value (log 6). -/
theorem portByte_of_not_complete {s : State} (h : s.faState ≠ .complete) (i a : Nat) :
    s.portByte i a = s.anyByte a := by
  simp [State.portByte, State.sampleHasMeaning, State.frameComplete, h]

/-- Settles O1: the reset table; its frame buffer lists nothing, and in RESYNCING no read of it has a meaning. -/
theorem resetStateFollowsItsTable : Obligations.ResetStateFollowsItsTable :=
  ⟨rfl, rfl, rfl, rfl, rfl, rfl, rfl, rfl, rfl, rfl, fun _ => rfl,
    fun i a => portByte_of_not_complete (by decide) i a, rfl, rfl⟩

/-! ## The status port -/

theorem quietStatus_toNat {s : State} (h : s.quietCnt < 65536) : s.quietStatus.toNat = s.quietCnt := by
  have hfits : s.quietCnt < 2 ^ 16 := h
  rw [State.quietStatus, if_pos hfits, BitVec.toNat_ofNat, Nat.mod_eq_of_lt hfits]

theorem toNat_setWidth_ofBool (b : Bool) : ((BitVec.ofBool b).setWidth 16).toNat = b.toNat := by
  cases b <;> rfl

/-- Settles O46: the read completes with the selected variable, and each select's value is that variable as a number. -/
theorem statusReadShowsTheSelectedVariable : Obligations.StatusReadShowsTheSelectedVariable := by
  intro sel s
  refine ⟨s.status sel, rfl, fun hq => ?_⟩
  have hq : sel.toNat = 9 → s.quietStatus.toNat = s.quietCnt :=
    fun h => quietStatus_toNat (hq (BitVec.eq_of_toNat_eq h))
  have hsel := sel.isLt
  unfold State.status
  interval_cases sel.toNat
  -- In the order of R20; a variable narrower than the port is zero-extended.
  exacts [rfl, rfl, toNat_setWidth_ofBool s.fmtSel, toNat_setWidth_ofBool s.resyncing,
    BitVec.toNat_setWidth_of_le (b := s.expectedPacketId) (by decide),
    BitVec.toNat_setWidth_of_le (b := s.expectedSegmentId) (by decide),
    toNat_setWidth_ofBool s.armed, toNat_setWidth_ofBool s.capturing,
    BitVec.toNat_setWidth_of_le (b := s.scState.code) (by decide), hq rfl,
    BitVec.toNat_setWidth_of_le (b := s.packetsPerFrame) (by decide),
    BitVec.toNat_setWidth_of_le (b := s.faState.code) (by decide), rfl, rfl, rfl, rfl]

/-! ## What sets and clears each variable -/

/-- A tick writes the quiet count only (43_sync_controller.md R133). -/
theorem countTick_frame (s : State) : s.countTick = { s with quietCnt := s.countTick.quietCnt } := by
  obtain ⟨-, -, e⟩ | ⟨-, e⟩ := countTick_cases s <;> rw [e]

@[simp] theorem countTick_resyncing (s : State) : s.countTick.resyncing = s.resyncing := by rw [countTick_frame]
@[simp] theorem countTick_armed (s : State) : s.countTick.armed = s.armed := by rw [countTick_frame]
@[simp] theorem countTick_capturing (s : State) : s.countTick.capturing = s.capturing := by rw [countTick_frame]
@[simp] theorem countTick_fb (s : State) : s.countTick.fb = s.fb := by rw [countTick_frame]

/-- The rows that hand a packet to the Frame Assembler are the producer's. -/
theorem agentOf_packet {i : Instr} {c : PacketClass} {pl : Payload} {ppf : BitVec 8}
    (h : i = c.toInstr pl ∨ ∃ p, i = .rxReceive p ∧ c = p.classOf ppf ∧ pl = p.payload) :
    agentOf i = .producer := by
  obtain rfl | ⟨p, rfl, -, -⟩ := h
  · cases c <;> rfl
  · rfl

/-- What a row does to `resyncing` (10_state.md R24). -/
theorem exec_resyncing {i : Instr} {s t : State} (h : exec i s = .next t) :
    t.resyncing = s.resyncing ∨ (agentOf i = .producer ∧ s.resyncing = false) ∨
      (i = .cmdCaptureStart ∧ t.resyncing = (s.resyncing || s.params.captureForcesResync)) ∨
      (i = .scFinish ∧ t.resyncing = false) ∨ (i = .reset ∧ t.resyncing = true) := by
  obtain ⟨o, rfl⟩ | ⟨-, hr, c, pl, -, -, hi⟩ | ⟨hh, vv, -, -, rfl⟩ | ⟨b, -, rfl⟩ | ⟨hi, -, -, rfl⟩ |
    ⟨-, -, rfl⟩ | ⟨-, rfl⟩ | ⟨hi, -, rfl⟩ | ⟨hi, rfl⟩ := exec_next h
  · exact .inl rfl
  · exact .inr (.inl ⟨agentOf_packet hi, hr⟩)
  · exact .inl rfl
  · exact .inl rfl
  · exact .inr (.inr (.inl ⟨hi, rfl⟩))
  · exact .inl rfl
  · exact .inl (countTick_resyncing s)
  · exact .inr (.inr (.inr (.inl ⟨hi, rfl⟩)))
  · exact .inr (.inr (.inr (.inr ⟨hi, rfl⟩)))

/-- Settles O52: a packet reaches the assembler with no resync pending only, a capture start sets the flag under its
parameter and clears it never, and every other row but SC.FINISH and RESET leaves it. -/
theorem onlyRecoveryClearsResyncing : Obligations.OnlyRecoveryClearsResyncing := by
  intro i s t h
  obtain e | ⟨hi, hr⟩ | ⟨rfl, e⟩ | ⟨rfl, e⟩ | ⟨rfl, e⟩ := exec_resyncing h
  · exact ⟨fun hs ht => by simp [e, hs] at ht, fun hs ht => by simp [e, hs] at ht⟩
  · exact ⟨fun hs => by simp [hr] at hs, fun _ _ => .inl hi⟩
  · exact ⟨fun hs ht => by simp [e, hs] at ht, fun hs ht => .inr (.inr ⟨rfl, by simpa [e, hs] using ht⟩)⟩
  · exact ⟨fun _ _ => rfl, fun _ ht => by simp [e] at ht⟩
  · exact ⟨fun _ ht => by simp [e] at ht, fun _ _ => .inr (.inl rfl)⟩

/-- What a row does to `armed` (10_state.md R27). -/
theorem exec_armed {i : Instr} {s t : State} (h : exec i s = .next t) :
    t.armed = s.armed ∨ (i = .scStart ∨ i = .reset) ∧ t.armed = false ∨ i = .scFinish ∧ t.armed = true := by
  obtain ⟨o, rfl⟩ | ⟨-, -, c, pl, -, hn, -⟩ | ⟨hh, vv, -, -, rfl⟩ | ⟨b, -, rfl⟩ | ⟨-, -, -, rfl⟩ |
    ⟨hi, -, rfl⟩ | ⟨-, rfl⟩ | ⟨hi, -, rfl⟩ | ⟨hi, rfl⟩ := exec_next h
  · exact .inl rfl
  · rw [onPacket_frame hn]; exact .inl rfl
  · exact .inl rfl
  · exact .inl rfl
  · exact .inl rfl
  · exact .inr (.inl ⟨.inl hi, rfl⟩)
  · exact .inl (countTick_armed s)
  · exact .inr (.inr ⟨hi, rfl⟩)
  · exact .inr (.inl ⟨.inr hi, rfl⟩)

theorem exec_scStart_next {s t : State} (h : exec .scStart s = .next t) : t = s.beginQuiet.quietly := by
  simp only [exec, execScStart] at h
  split at h <;> cases h
  rfl

theorem exec_scFinish_next {s t : State} (h : exec .scFinish s = .next t) : t = s.returnFromResync.quietly := by
  simp only [exec, execScFinish] at h
  split at h <;> cases h
  rfl

/-- Settles O53: SC.START and RESET clear the flag, SC.FINISH sets it, every other row leaves it. -/
theorem onlyRecoveryMovesArmed : Obligations.OnlyRecoveryMovesArmed := by
  intro i s t h
  refine ⟨fun hs ht => ?_, fun hs ht => ?_, ?_, ?_, rfl⟩
  · obtain e | ⟨-, e⟩ | ⟨hi, -⟩ := exec_armed h
    · simp [e, hs] at ht
    · simp [e] at ht
    · exact hi
  · obtain e | ⟨hi, -⟩ | ⟨-, e⟩ := exec_armed h
    · simp [e, hs] at ht
    · exact hi
    · simp [e] at ht
  · rintro rfl
    rw [exec_scFinish_next h]; rfl
  · rintro (rfl | rfl)
    · rw [exec_scStart_next h]; rfl
    · cases h; rfl

/-- A packet ends a capture by the accept step that completes the frame, and begins none (44_host_interface.md R150). -/
theorem onPacket_capturing {c : PacketClass} {pl : Payload} {s t : State} (hr : s.resyncing = false)
    (h : onPacket c pl s = .next t) :
    t.capturing = s.capturing ∨ (t.capturing = false ∧ t.faState = .complete) := by
  obtain rfl | ⟨-, rfl | rfl | ⟨-, rfl⟩⟩ := onPacket_writes h
  · exact .inl rfl
  · exact .inl rfl
  · exact .inl rfl
  · by_cases hl : s.advancedId = s.packetsPerFrame
    · exact .inr ⟨if_pos hl, (faState_eq_complete_iff _).mpr ⟨hr, hl⟩⟩
    · exact .inl (if_neg hl)

/-- What a row does to `capturing` (10_state.md R30). -/
theorem exec_capturing {i : Instr} {s t : State} (h : exec i s = .next t) :
    t.capturing = s.capturing ∨ (agentOf i = .producer ∧ t.capturing = false ∧ t.faState = .complete) ∨
      (i = .cmdCaptureStart ∧ t.capturing = true) ∨ (i = .reset ∧ t.capturing = false) := by
  obtain ⟨o, rfl⟩ | ⟨-, hr, c, pl, -, hn, hi⟩ | ⟨hh, vv, -, -, rfl⟩ | ⟨b, -, rfl⟩ | ⟨hi, -, -, rfl⟩ |
    ⟨-, -, rfl⟩ | ⟨-, rfl⟩ | ⟨-, -, rfl⟩ | ⟨hi, rfl⟩ := exec_next h
  · exact .inl rfl
  · exact (onPacket_capturing (s := s.packetEvent) hr hn).imp_right fun e => .inl ⟨agentOf_packet hi, e⟩
  · exact .inl rfl
  · exact .inl rfl
  · exact .inr (.inr (.inl ⟨hi, rfl⟩))
  · exact .inl rfl
  · exact .inl (countTick_capturing s)
  · exact .inl rfl
  · exact .inr (.inr (.inr ⟨hi, rfl⟩))

/-- Settles O54: CMD.CAPTURE_START sets the flag, RESET and the packet that completes the frame clear it. -/
theorem captureEndsOnlyByCompletionOrReset : Obligations.CaptureEndsOnlyByCompletionOrReset := by
  intro i s t h
  obtain e | ⟨hi, e, hc⟩ | ⟨hi, e⟩ | ⟨hi, e⟩ := exec_capturing h
  · exact ⟨fun hs ht => by simp [e, hs] at ht, fun hs ht => by simp [e, hs] at ht⟩
  · exact ⟨fun _ ht => by simp [e] at ht, fun _ _ => .inr ⟨hi, hc⟩⟩
  · exact ⟨fun _ _ => hi, fun _ ht => by simp [e] at ht⟩
  · exact ⟨fun _ ht => by simp [e] at ht, fun _ _ => .inl hi⟩

/-- Settles O55: of the assembler's writes only the accept step touches the frame buffer, below COMPLETE; a row write
leaves every byte outside its row. -/
theorem onlyAcceptWritesTheFrameBuffer : Obligations.OnlyAcceptWritesTheFrameBuffer := by
  intro i s t h
  obtain ⟨o, rfl⟩ | ⟨ha, hr, c, pl, -, hn, hi⟩ | ⟨hh, vv, -, -, rfl⟩ | ⟨b, -, rfl⟩ | ⟨-, -, -, rfl⟩ |
    ⟨-, -, rfl⟩ | ⟨-, rfl⟩ | ⟨-, -, rfl⟩ | ⟨hi, rfl⟩ := exec_next h
  · exact .inl rfl
  · obtain rfl | ⟨hne, rfl | rfl | ⟨-, rfl⟩⟩ := onPacket_writes hn
    · exact .inl rfl
    · exact .inl rfl
    · exact .inl rfl
    · have hnc : s.faState ≠ .complete := fun hc => hne ((faState_eq_complete_iff s).mp hc).2
      exact .inr (.inr ⟨agentOf_packet hi, ha, hnc, faState_ne_resyncing hr, rfl,
        fun a houtside => Memory.read_writeRow_outside s.fb s.nextRow pl a houtside⟩)
  · exact .inl rfl
  · exact .inl rfl
  · exact .inl rfl
  · exact .inl rfl
  · exact .inl (countTick_fb s)
  · exact .inl rfl
  · exact .inr (.inl hi)
end Sys2Proof.Machine
end

section
/-! PROOFS. 20_memory.md: what the frame-buffer port answers, and that a completed frame stays as it is. -/

namespace Sys2Proof.Machine

/-! ## The read port -/

/-- A read of an existing sample changes nothing but the port's data (20_memory.md R55). -/
theorem exec_fbRead {i : BitVec 15} (h : i.toNat < 19200) (s : State) :
    exec (.fbRead i) s = .next { s with out := ⟨false, none, none, some (s.sample i.toNat)⟩ } :=
  if_pos h

theorem exec_fbRead_refused {i : BitVec 15} (h : 19200 ≤ i.toNat) (s : State) :
    exec (.fbRead i) s = .refused (.noSuchSample i.toNat) :=
  if_neg (Nat.not_lt.mpr h)

/-- Settles O48: the data of a read is the state's own sample, and no sample depends on the outputs. -/
theorem frameReadHasNoSideEffect : Obligations.FrameReadHasNoSideEffect := by
  intro i s
  exact ⟨fun h => ⟨s.sample i.toNat, _, rfl, exec_fbRead h s, exec_fbRead h _⟩,
    fun h => exec_fbRead_refused h s⟩

/-- In COMPLETE the counted rows are all rows of the geometry, so I8 covers each of their bytes. -/
theorem Invariants.frame_written {s : State} (h : Invariants s) (hc : s.faState = .complete) {a : Nat}
    (ha : a < 160 * s.packetsPerFrame.toNat) : ∃ b, s.fb.read a = some b := by
  obtain ⟨-, hid⟩ := (faState_eq_complete_iff s).mp hc
  rw [← hid] at ha
  exact Option.isSome_iff_exists.mp (h.countedRowsWritten a ha)

/-- A read with a meaning returns the written byte (20_memory.md R55). -/
theorem portByte_of_complete {s : State} (hc : s.faState = .complete) {i a : Nat} {b : Byte}
    (hi : i < 80 * s.packetsPerFrame.toNat) (hb : s.fb.read a = some b) : s.portByte i a = b := by
  have hm : s.sampleHasMeaning i = true := by simp [State.sampleHasMeaning, State.frameComplete, hc, hi]
  rw [State.portByte, if_pos hm, hb, Option.getD_some]

/-- Settles O47: both bytes of the sample lie in counted rows, and the port joins them high byte first. -/
theorem completeFrameReadsBack : Obligations.CompleteFrameReadsBack := by
  intro i s hs hc hi
  have hppf := packetsPerFrame_toNat_le s
  obtain ⟨hi8, hhi⟩ := hs.frame_written hc (a := 2 * i.toNat) (by omega)
  obtain ⟨lo8, hlo⟩ := hs.frame_written hc (a := 2 * i.toNat + 1) (by omega)
  have hsample : s.sample i.toNat = hi8 ++ lo8 := by
    rw [State.sample, portByte_of_complete hc hi hhi, portByte_of_complete hc hi hlo]
  exact ⟨hi8, lo8, hhi, hlo, hsample ▸ exec_fbRead (by omega) s⟩

/-! ## A completed frame stays -/

/-- What a sample depends on is the same in two states: who owns the frame buffer, the geometry, the bytes, and the
argument of the free value (20_memory.md R55; log 6). -/
structure SameFrame (s t : State) : Prop where
  faState : t.faState = s.faState
  packetsPerFrame : t.packetsPerFrame = s.packetsPerFrame
  fb : t.fb = s.fb
  fbPowerUp : t.fbPowerUp = s.fbPowerUp

theorem SameFrame.refl (s : State) : SameFrame s s := ⟨rfl, rfl, rfl, rfl⟩

theorem SameFrame.trans {s t u : State} (h : SameFrame s t) (h' : SameFrame t u) : SameFrame s u :=
  ⟨h'.faState.trans h.faState, h'.packetsPerFrame.trans h.packetsPerFrame, h'.fb.trans h.fb,
    h'.fbPowerUp.trans h.fbPowerUp⟩

theorem SameFrame.sampleHasMeaning {s t : State} (h : SameFrame s t) (j : Nat) :
    t.sampleHasMeaning j = s.sampleHasMeaning j := by
  simp only [State.sampleHasMeaning, State.frameComplete, h.faState, h.packetsPerFrame]

theorem SameFrame.portByte {s t : State} (h : SameFrame s t) (j a : Nat) : t.portByte j a = s.portByte j a := by
  have hany : t.anyByte a = s.anyByte a := by simp only [State.anyByte, h.fb, h.fbPowerUp]
  rw [State.portByte, h.sampleHasMeaning j, h.fb, hany, State.portByte]

theorem SameFrame.sample {s t : State} (h : SameFrame s t) (j : Nat) : t.sample j = s.sample j := by
  simp only [State.sample, h.portByte]

theorem countTick_sameFrame (s : State) : SameFrame s s.countTick := by
  rw [countTick_frame]
  exact ⟨rfl, rfl, rfl, rfl⟩

/-- The Frame Assembler writes nothing in COMPLETE (42_frame_assembler.md R113). -/
theorem onPacket_of_complete {c : PacketClass} {pl : Payload} {s t : State} (hc : s.faState = .complete)
    (h : onPacket c pl s = .next t) : t = s := by
  obtain ⟨-, hid⟩ := (faState_eq_complete_iff s).mp hc
  obtain rfl | ⟨hne, -⟩ := onPacket_writes h
  · rfl
  · exact absurd hid hne

/-- No resync is pending in COMPLETE, so the recovery FSM is idle (I3). -/
theorem Invariants.cannotFinish_of_complete {s : State} (h : Invariants s) (hc : s.faState = .complete) :
    s.recoveryCanFinish = false := by
  obtain ⟨hr, -⟩ := (faState_eq_complete_iff s).mp hc
  have hq : s.scState ≠ .quiet := fun hq => by
    obtain ⟨hr', -⟩ := h.quietMeansRecovering hq
    simp [hr] at hr'
  simp [State.recoveryCanFinish, hq]

/-- Only the host's two reclaiming commands and hardware reset move a completed frame (10_state.md R39). -/
theorem exec_keeps_complete_frame {i : Instr} {s t : State} (hs : Invariants s) (hc : s.faState = .complete)
    (hi : takesFrameBack i = false) (h : exec i s = .next t) : SameFrame s t := by
  obtain ⟨o, rfl⟩ | ⟨-, -, c, pl, -, hn, -⟩ | ⟨hh, vv, rfl, -, -⟩ | ⟨b, -, rfl⟩ | ⟨rfl, -, -, -⟩ |
    ⟨-, -, rfl⟩ | ⟨-, rfl⟩ | ⟨-, hg, -⟩ | ⟨rfl, -⟩ := exec_next h
  · exact ⟨rfl, rfl, rfl, rfl⟩
  · rw [onPacket_of_complete (s := s.packetEvent) hc hn]
    exact ⟨rfl, rfl, rfl, rfl⟩
  · cases hi
  · exact ⟨rfl, rfl, rfl, rfl⟩
  · cases hi
  · exact ⟨rfl, rfl, rfl, rfl⟩
  · exact (countTick_sameFrame s).trans ⟨rfl, rfl, rfl, rfl⟩
  · simp [hs.cannotFinish_of_complete hc] at hg
  · cases hi

theorem execAll_keeps_complete_frame {is : List Instr} {s t : State} (hs : Invariants s) (hc : s.faState = .complete)
    (his : ∀ i ∈ is, takesFrameBack i = false) (h : execAll is s = .next t) : SameFrame s t := by
  induction is using List.reverseRecOn generalizing t with
  | nil => cases h; exact .refl s
  | append_singleton is j ih =>
    obtain ⟨u, hu, hj⟩ := execAll_concat h
    have hsu : SameFrame s u := ih (fun i hi => his i (List.mem_append_left _ hi)) hu
    exact hsu.trans (exec_keeps_complete_frame (execAll_keeps_invariants hs hu) (hsu.faState.trans hc)
      (his j (by simp)) hj)

/-- Settles O60: the run keeps everything a sample depends on. -/
theorem completedFrameStaysUntilTakenBack : Obligations.CompletedFrameStaysUntilTakenBack := by
  intro is s t hs hc his h
  have hst : SameFrame s t := execAll_keeps_complete_frame hs hc his h
  exact ⟨hst.faState.trans hc, hst.fb, hst.sample⟩

end Sys2Proof.Machine
end

section
/-! PROOFS. 30_encoding.md: the header fields, what the decoder accepts and answers, that it inverts the encoder, the
header bits no step reads, and the rejected commands. -/

namespace Sys2Proof

/-! ## Header fields -/

theorem packetId_toNat (b0 b1 : Byte) : (packetId b0 b1).toNat = (b0.toNat % 16) * 256 + b1.toNat := by
  rw [packetId, BitVec.toNat_append, ← Nat.shiftLeft_add_eq_or_of_lt b1.isLt, Nat.shiftLeft_eq,
    BitVec.extractLsb'_toNat, Nat.shiftRight_zero]

theorem segmentId_toNat (b0 : Byte) : (segmentId b0).toNat = (b0.toNat / 16) % 8 := by
  rw [segmentId, BitVec.extractLsb'_toNat, Nat.shiftRight_eq_div_pow]

theorem isDiscard_iff (b0 : Byte) : isDiscard b0 = true ↔ b0.toNat % 16 = 15 := by
  rw [isDiscard, decide_eq_true_iff, BitVec.toNat_eq, BitVec.extractLsb'_toNat, Nat.shiftRight_zero]
  rfl

/-- The low nibble of byte 0 is the high nibble of the id (30_encoding.md R74). -/
theorem isDiscard_iff_packetId (b0 b1 : Byte) : isDiscard b0 = true ↔ 0xF00 ≤ (packetId b0 b1).toNat := by
  have hb1 : b1.toNat < 256 := b1.isLt
  rw [isDiscard_iff, packetId_toNat]
  omega

/-- Settles O6: each field's bits read as a number. -/
theorem headerFieldsAreTheBytesBits : Obligations.HeaderFieldsAreTheBytesBits := fun b0 b1 =>
  ⟨packetId_toNat b0 b1, segmentId_toNat b0, isDiscard_iff b0, isDiscard_iff_packetId b0 b1⟩

/-- The classifier as a function of the two header fields alone: it reads nothing else (40_packet_codec.md R90). -/
def classOfFields (pid : BitVec 12) (seg : BitVec 3) (ppf : BitVec 8) : PacketClass :=
  if 0xF00 ≤ pid.toNat then .discard
  else if pid = Config.specialPid ∧ ppf = Config.ppfMulti then .special seg
  else if pid ≤ Config.maxNormalPid then .normal pid seg
  else .oor pid seg

theorem classify_eq_classOfFields (b0 b1 b2 b3 : Byte) (ppf : BitVec 8) :
    classify b0 b1 b2 b3 ppf = classOfFields (packetId b0 b1) (segmentId b0) ppf := by
  simp only [classify, classOfFields, isDiscard_iff_packetId b0 b1]

/-! ## Link units -/

/-- A link unit of 164 bytes is a packet (30_encoding.md R70). -/
theorem parsePacket_of_length : ∀ {bytes : List Byte}, bytes.length = 164 → ∃ p, parsePacket bytes = .ok p
  | _ :: _ :: _ :: _ :: _, h => ⟨_, dif_pos (Nat.add_right_cancel (m := 4) h)⟩

theorem parsePacket_error_iff {bytes : List Byte} {e : DecodeReject} :
    parsePacket bytes = .error e ↔ bytes.length ≠ 164 ∧ e = .badPacketLength bytes.length := by
  by_cases hlen : bytes.length = 164
  · obtain ⟨p, hp⟩ := parsePacket_of_length hlen
    simp [hp, hlen]
  · simp [parsePacket_badLength hlen, hlen, eq_comm]

theorem decode_packet_of_error {bytes : List Byte} {e : DecodeReject} (h : parsePacket bytes = .error e)
    (armed : Bool) : decode armed (.packet bytes) = .error e := by
  simp only [decode, h]

theorem decode_packet_of_ok {bytes : List Byte} {p : Packet} (h : parsePacket bytes = .ok p) (armed : Bool) :
    decode armed (.packet bytes) = .ok (if armed then .rxReceive p else .rxUnarmed) := by
  simp only [decode, h]

theorem decodeRow_packet_of_error {bytes : List Byte} {e : DecodeReject} (h : parsePacket bytes = .error e)
    (ppf : BitVec 8) : decodeRow ppf (.packet bytes) = .error e := by
  simp only [decodeRow, h]

theorem decodeRow_packet_of_ok {bytes : List Byte} {p : Packet} (h : parsePacket bytes = .ok p) (ppf : BitVec 8) :
    decodeRow ppf (.packet bytes) = .ok (p.toRow ppf) := by
  simp only [decodeRow, h]

/-- The two decoders differ on packets only. -/
theorem decodeRow_eq_decode {x : Stimulus} (hx : ∀ bytes, x ≠ .packet bytes) (ppf : BitVec 8) (armed : Bool) :
    decodeRow ppf x = decode armed x := by
  cases x with
  | packet bytes => exact absurd rfl (hx bytes)
  | _ => rfl

/-! ## What the decoder rejects -/

theorem decodeFrameRead_ok {i : BitVec 15} (h : i.toNat < 19200) : decodeFrameRead i = .ok (.fbRead i) := if_pos h

theorem decodeFrameRead_error_iff {i : BitVec 15} {e : DecodeReject} :
    decodeFrameRead i = .error e ↔ 19200 ≤ i.toNat ∧ e = .noSuchSample i.toNat := by
  by_cases hi : i.toNat < 19200
  · simp [decodeFrameRead_ok hi, hi]
  · have herr : decodeFrameRead i = .error (.noSuchSample i.toNat) := if_neg hi
    simp [herr, Nat.not_lt.mp hi, eq_comm]

theorem decode_packet_error_iff {armed : Bool} {bytes : List Byte} {e : DecodeReject} :
    decode armed (.packet bytes) = .error e ↔ parsePacket bytes = .error e := by
  cases hp : parsePacket bytes with
  | error e' => rw [decode_packet_of_error hp]; simp
  | ok p => rw [decode_packet_of_ok hp]; simp

/-- Settles O12: only a link unit and a frame-buffer read have a length or a range to violate. -/
theorem decoderRejectsOnlyWhatDoesNotExist : Obligations.DecoderRejectsOnlyWhatDoesNotExist := by
  intro armed x e
  cases x with
  | packet bytes => simp [decode_packet_error_iff, parsePacket_error_iff]
  | frameRead i => simp [decode, decodeFrameRead_error_iff]
  | _ => simp [decode]

/-! ## Commands -/

/-- Settles O8: the four codes are the decoder's four branches, and a bit field is the argument shifted and cut. -/
theorem commandCodesDecodeAsTabled : Obligations.CommandCodesDecodeAsTabled := by
  intro armed arg
  refine ⟨⟨arg.extractLsb' 0 16, arg.extractLsb' 16 16, rfl, ?hRes, ?vRes⟩,
    ⟨arg.getLsbD 0, rfl, ?fmtSel⟩, rfl, rfl⟩
  case hRes => rw [BitVec.extractLsb'_toNat, Nat.shiftRight_zero]
  case vRes =>
    have harg : arg.toNat < 4294967296 := arg.isLt
    rw [BitVec.extractLsb'_toNat, Nat.shiftRight_eq_div_pow]
    omega
  case fmtSel => simp [BitVec.getLsbD, Nat.testBit_zero]

/-- A command decodes to one of the four command rows (30_encoding.md R80). -/
theorem decodeCommand_cases (op : BitVec 2) (arg : BitVec 32) :
    (∃ h v, decodeCommand op arg = .cmdSetGeometry h v) ∨ (∃ b, decodeCommand op arg = .cmdSetFormat b) ∨
      decodeCommand op arg = .cmdCaptureStart ∨ decodeCommand op arg = .cmdReserved := by
  unfold decodeCommand
  split
  · exact .inl ⟨_, _, rfl⟩
  · split
    · exact .inr (.inl ⟨_, rfl⟩)
    · split
      · exact .inr (.inr (.inl rfl))
      · exact .inr (.inr (.inr rfl))

/-! ## What the decoder answers -/

/-- A `PKT` row of a class that some geometry has meets its operand ranges. -/
theorem wf_toInstr_of_fits {c : PacketClass} {ppf : BitVec 8} (h : c.fits ppf = true) (pl : Payload) :
    (c.toInstr pl).wf = true := by
  cases c with
  | discard => rfl
  | special seg => rfl
  | normal pid seg =>
    obtain ⟨hpid, -⟩ := Bool.and_eq_true_iff.mp h
    exact hpid
  | oor pid seg => exact h

theorem isReception_toInstr (c : PacketClass) (pl : Payload) : Machine.isReception (c.toInstr pl) = true := by
  cases c <;> rfl

/-- What is no packet decodes to a well-formed row that is no reception. -/
theorem decode_of_not_packet {x : Stimulus} (hx : ∀ bytes, x ≠ .packet bytes) {armed : Bool} {i : Instr}
    (h : decode armed x = .ok i) : i.wf = true ∧ Machine.isReception i = false := by
  cases x with
  | packet bytes => exact absurd rfl (hx bytes)
  | command op arg =>
    cases h
    obtain ⟨hh, vv, e⟩ | ⟨b, e⟩ | e | e := decodeCommand_cases op arg <;> rw [e] <;> exact ⟨rfl, rfl⟩
  | frameRead j =>
    by_cases hj : j.toNat < 19200
    · cases (decodeFrameRead_ok hj).symm.trans h
      exact ⟨decide_eq_true hj, rfl⟩
    · cases (decodeFrameRead_error_iff.mpr ⟨Nat.not_lt.mp hj, rfl⟩).symm.trans h
  | _ => cases h; exact ⟨rfl, rfl⟩

/-- A packet decodes to a receiver row, which admits every packet. -/
theorem wf_of_decode_packet {armed : Bool} {bytes : List Byte} {i : Instr} (h : decode armed (.packet bytes) = .ok i) :
    i.wf = true := by
  cases hp : parsePacket bytes with
  | error e => cases (decode_packet_of_error hp armed).symm.trans h
  | ok p =>
    cases (decode_packet_of_ok hp armed).symm.trans h
    cases armed <;> rfl

/-- A packet decodes to a `PKT` row of a class the geometry has (30_encoding.md R77). -/
theorem fits_of_decodeRow_packet {ppf : BitVec 8} {bytes : List Byte} {i : Instr}
    (h : decodeRow ppf (.packet bytes) = .ok i) : ∃ c pl, i = PacketClass.toInstr pl c ∧ c.fits ppf = true := by
  cases hp : parsePacket bytes with
  | error e => cases (decodeRow_packet_of_error hp ppf).symm.trans h
  | ok p =>
    cases (decodeRow_packet_of_ok hp ppf).symm.trans h
    exact ⟨p.classOf ppf, p.payload, rfl, classify_fits _ _ _ _ ppf⟩

/-- Settles O11: a packet's row is of the class the classifier gave it; every other row is no `PKT` row. -/
theorem decodedInstructionIsWellFormed : Obligations.DecodedInstructionIsWellFormed := by
  intro armed ppf x i
  by_cases hx : ∀ bytes, x ≠ .packet bytes
  · refine ⟨fun h => (decode_of_not_packet hx h).1, fun h => ?_⟩
    obtain ⟨hwf, hrec⟩ := decode_of_not_packet hx ((decodeRow_eq_decode hx ppf armed).symm.trans h)
    refine ⟨hwf, fun c pl hi => ?_⟩
    rw [hi, isReception_toInstr] at hrec
    cases hrec
  · push Not at hx
    obtain ⟨bytes, rfl⟩ := hx
    refine ⟨wf_of_decode_packet, fun h => ?_⟩
    obtain ⟨c, pl, rfl, hfits⟩ := fits_of_decodeRow_packet h
    refine ⟨wf_toInstr_of_fits hfits pl, fun c' pl' hi => ?_⟩
    obtain ⟨rfl, -⟩ := PacketClass.toInstr_inj hi
    exact hfits

/-! ## The decoder inverts the encoder -/

theorem packetId_headerByte0 (pid : BitVec 12) (seg : BitVec 3) :
    packetId (headerByte0 pid seg) (pid.extractLsb' 0 8) = pid := by
  have hlow : (headerByte0 pid seg).extractLsb' 0 4 = pid.extractLsb' 8 4 := BitVec.extractLsb'_append_eq_right
  rw [packetId, hlow]
  exact (BitVec.extractLsb'_append_extractLsb'_eq_extractLsb' rfl).trans BitVec.extractLsb'_eq_self

theorem segmentId_headerByte0 (pid : BitVec 12) (seg : BitVec 3) : segmentId (headerByte0 pid seg) = seg := by
  rw [segmentId, headerByte0, BitVec.extractLsb'_append_eq_of_le (Nat.le_refl 4)]
  exact BitVec.extractLsb'_append_eq_right

theorem classOf_packetOf (pid : BitVec 12) (seg : BitVec 3) (pl : Payload) (ppf : BitVec 8) :
    (packetOf pid seg pl).classOf ppf = classOfFields pid seg ppf := by
  rw [Packet.classOf, classify_eq_classOfFields]
  simp only [packetOf, packetId_headerByte0, segmentId_headerByte0]

/-- The id and the segment number the encoder writes for a class; those of a discard packet are its choice (log 22). -/
def encodedFields (c : PacketClass) : BitVec 12 × BitVec 3 := (Machine.fieldsOf c).getD (0xF00#12, 0#3)

/-- The packet the encoder writes for a class and a payload. -/
def encodedPacket (c : PacketClass) (pl : Payload) : Packet := packetOf (encodedFields c).1 (encodedFields c).2 pl

theorem encode_toInstr (c : PacketClass) (pl : Payload) :
    encode (c.toInstr pl) = some (.packet (encodedPacket c pl).bytes) := by
  cases c <;> rfl

/-- The encoded fields classify back in every geometry that has the class. -/
theorem classOfFields_encodedFields {c : PacketClass} {ppf : BitVec 8} (h : c.fits ppf = true) :
    classOfFields (encodedFields c).1 (encodedFields c).2 ppf = c := by
  cases c with
  | discard => rfl
  | special seg =>
    have hppf : ppf = 240#8 := by simpa [PacketClass.fits] using h
    subst hppf
    rfl
  | normal pid seg =>
    simp only [PacketClass.fits, Bool.and_eq_true, decide_eq_true_eq, Bool.not_eq_true', decide_eq_false_iff_not] at h
    obtain ⟨hpid, hspecial⟩ := h
    have hdiscard : ¬ 0xF00 ≤ pid.toNat := by
      have : pid.toNat ≤ 59 := hpid
      omega
    exact (if_neg hdiscard).trans ((if_neg hspecial).trans (if_pos hpid))
  | oor pid seg =>
    simp only [PacketClass.fits, Bool.and_eq_true, decide_eq_true_eq] at h
    obtain ⟨hlo, hhi⟩ := h
    have hlo' : 59 < pid.toNat := hlo
    have hdiscard : ¬ 0xF00 ≤ pid.toNat := by
      have : pid.toNat ≤ 3839 := hhi
      omega
    have hspecial : ¬ (pid = Config.specialPid ∧ ppf = Config.ppfMulti) := by
      rintro ⟨rfl, -⟩
      exact absurd hlo' (by decide)
    exact (if_neg hdiscard).trans ((if_neg hspecial).trans (if_neg (Nat.not_le.mpr hlo')))

theorem decodeRow_encodedPacket {c : PacketClass} {ppf : BitVec 8} (h : c.fits ppf = true) (pl : Payload) :
    decodeRow ppf (.packet (encodedPacket c pl).bytes) = .ok (c.toInstr pl) := by
  have hclass : (encodedPacket c pl).classOf ppf = c := by
    rw [encodedPacket, classOf_packetOf, classOfFields_encodedFields h]
  rw [decodeRow_packet_of_ok (parsePacket_bytes _), Packet.toRow, hclass]
  rfl

theorem decodeCommand_setGeometry (h v : BitVec 16) : decodeCommand 0#2 (v ++ h) = .cmdSetGeometry h v :=
  congrArg₂ Instr.cmdSetGeometry BitVec.extractLsb'_append_eq_right BitVec.extractLsb'_append_eq_left

theorem decodeCommand_setFormat (b : Bool) :
    decodeCommand 1#2 ((BitVec.ofBool b).setWidth 32) = .cmdSetFormat b := by
  cases b <;> rfl

/-- What an instruction with an encoding is: a `PKT` row, a received packet, or a row whose stimulus is no packet and
decodes back whatever the state of reception. -/
theorem encode_cases {i : Instr} {x : Stimulus} (hwf : i.wf = true) (h : encode i = some x) :
    (∃ c pl, i = PacketClass.toInstr pl c ∧ x = .packet (encodedPacket c pl).bytes) ∨
      (∃ p, i = .rxReceive p ∧ x = .packet p.bytes) ∨
      ((∀ bytes, x ≠ .packet bytes) ∧ ∀ armed, decode armed x = .ok i) := by
  have pkt : ∀ c pl, encode (PacketClass.toInstr pl c) = some x →
      ∃ c' pl', PacketClass.toInstr pl c = PacketClass.toInstr pl' c' ∧ x = .packet (encodedPacket c' pl').bytes :=
    fun c pl h => ⟨c, pl, rfl, Option.some.inj (h.symm.trans (encode_toInstr c pl))⟩
  cases i with
  | pktDiscard pl => exact .inl (pkt .discard pl h)
  | pktSpecial seg pl => exact .inl (pkt (.special seg) pl h)
  | pktNormal pid seg pl => exact .inl (pkt (.normal pid seg) pl h)
  | pktOor pid seg pl => exact .inl (pkt (.oor pid seg) pl h)
  | rxReceive p => cases h; exact .inr (.inl ⟨p, rfl, rfl⟩)
  | rxDrop => cases h
  | rxUnarmed => cases h
  | cmdSetGeometry hh vv =>
    cases h
    exact .inr (.inr ⟨nofun, fun _ => congrArg Except.ok (decodeCommand_setGeometry hh vv)⟩)
  | cmdSetFormat b =>
    cases h
    exact .inr (.inr ⟨nofun, fun _ => congrArg Except.ok (decodeCommand_setFormat b)⟩)
  | fbRead j =>
    cases h
    exact .inr (.inr ⟨nofun, fun _ => decodeFrameRead_ok (of_decide_eq_true hwf)⟩)
  | _ => cases h; exact .inr (.inr ⟨nofun, fun _ => rfl⟩)

/-- Settles O10: by the three kinds of encoded instruction. -/
theorem encodedInstructionDecodesBack : Obligations.EncodedInstructionDecodesBack := by
  intro i x hwf henc
  obtain ⟨c, pl, rfl, rfl⟩ | ⟨p, rfl, rfl⟩ | ⟨hx, hdec⟩ := encode_cases hwf henc
  · refine ⟨fun p hp => ?_, fun _ ppf hfits => decodeRow_encodedPacket (hfits c pl rfl) pl,
      fun hx => absurd rfl (hx _)⟩
    cases c <;> cases hp
  · exact ⟨fun _ _ => decode_packet_of_ok (parsePacket_bytes p) true, fun hp => absurd rfl (hp p),
      fun hx => absurd rfl (hx _)⟩
  · exact ⟨fun _ _ => hdec true, fun _ ppf _ => (decodeRow_eq_decode hx ppf true).trans (hdec true), fun _ => hdec⟩

end Sys2Proof

namespace Sys2Proof.Machine

/-! ## Ignored header bits -/

/-- The classifier reads byte 1 and the low seven bits of byte 0 (30_encoding.md R75, R78). -/
theorem classOf_congr {p q : Packet} (h1 : p.b1 = q.b1) (h0 : p.b0.toNat % 128 = q.b0.toNat % 128) (ppf : BitVec 8) :
    p.classOf ppf = q.classOf ppf := by
  have hid : packetId p.b0 p.b1 = packetId q.b0 q.b1 := by
    apply BitVec.eq_of_toNat_eq
    rw [packetId_toNat, packetId_toNat, h1]
    omega
  have hseg : segmentId p.b0 = segmentId q.b0 := by
    apply BitVec.eq_of_toNat_eq
    rw [segmentId_toNat, segmentId_toNat]
    omega
  rw [Packet.classOf, Packet.classOf, classify_eq_classOfFields, classify_eq_classOfFields, hid, hseg]

theorem step_packet (s : State) (rest : List Stimulus) (p : Packet) :
    step { s with schedule := .packet p.bytes :: rest } =
      exec (if s.armed then .rxReceive p else .rxUnarmed) { s with schedule := rest } :=
  step_of_fetch_ok (fetch_of_decode_ok rfl (decode_packet_of_ok (parsePacket_bytes p) s.armed))

/-- Settles O31: a received packet acts through its class and its payload, one not received through neither. -/
theorem ignoredHeaderBitsChangeNoStep : Obligations.IgnoredHeaderBitsChangeNoStep := by
  intro s rest p q h1 hpl h0
  have hrx : ∀ u : State, execRxReceive p u = execRxReceive q u := fun u => by
    rw [execRxReceive, execRxReceive, classOf_congr h1 h0, hpl]
  rw [step_packet, step_packet]
  cases s.armed
  · rfl
  · exact hrx _

/-! ## Rejected commands -/

theorem onPacket_out {c : PacketClass} {pl : Payload} {s t : State} (h : onPacket c pl s = .next t) :
    t.out = s.out := by
  rw [onPacket_frame h]

/-- A `PKT` row answers no command. -/
theorem assemble_rsp {m : String} {c : PacketClass} {pl : Payload} {s t : State} (h : assemble m c pl s = .next t) :
    t.out.rsp = none := by
  obtain ⟨-, -, -, hn⟩ := assemble_next h
  rw [onPacket_out hn]
  rfl

/-- A row answers nothing, answers OK, or writes nothing but its response (30_encoding.md R81). -/
theorem exec_rsp {i : Instr} {s t : State} (h : exec i s = .next t) :
    t.out.rsp = none ∨ t.out.rsp = some .ok ∨ ∃ r, t = s.respond r := by
  cases i with
  | pktDiscard pl => exact .inl (assemble_rsp h)
  | pktSpecial seg pl => exact .inl (assemble_rsp h)
  | pktNormal pid seg pl => exact .inl (assemble_rsp h)
  | pktOor pid seg pl => exact .inl (assemble_rsp h)
  | cmdSetGeometry hh vv =>
    simp only [exec, execSetGeometry] at h
    split at h
    · cases h; exact .inr (.inr ⟨.busy, rfl⟩)
    · cases h; exact .inr (.inl rfl)
  | cmdSetFormat b => cases h; exact .inr (.inl rfl)
  | cmdCaptureStart =>
    simp only [exec, execCaptureStart] at h
    split at h
    · cases h; exact .inr (.inr ⟨.notConfigured, rfl⟩)
    · split at h
      · cases h; exact .inr (.inr ⟨.busy, rfl⟩)
      · cases h; exact .inr (.inl rfl)
  | cmdReserved => cases h; exact .inr (.inr ⟨.illegalCommand, rfl⟩)
  | stRead sel => cases h; exact .inl rfl
  | fbRead j =>
    simp only [exec, execFbRead] at h
    split at h
    · cases h; exact .inl rfl
    · cases h
  | rxReceive p =>
    obtain ⟨-, ⟨-, rfl⟩ | ⟨-, hn⟩⟩ := execRxReceive_next h
    · exact .inl rfl
    · rw [onPacket_out hn]; exact .inl rfl
  | rxDrop =>
    simp only [exec, execRxDrop] at h
    split at h
    · cases h; exact .inl rfl
    · cases h
  | rxUnarmed =>
    simp only [exec, execRxUnarmed] at h
    split at h
    · cases h
    · cases h; exact .inl rfl
  | scStart => rw [exec_scStart_next h]; exact .inl rfl
  | scTick => cases h; exact .inl rfl
  | scFinish => rw [exec_scFinish_next h]; exact .inl rfl
  | reset => cases h; exact .inl rfl

/-- Settles O45: of the three answers of a row only the one that writes nothing else is a rejection. -/
theorem rejectedCommandChangesNothing : Obligations.RejectedCommandChangesNothing := by
  refine ⟨⟨rfl, rfl, rfl, rfl⟩, fun i s t r h hr hne => ?_⟩
  obtain hnone | hok | ⟨r', rfl⟩ := exec_rsp h
  · cases hnone.symm.trans hr
  · cases hok.symm.trans hr
    exact absurd rfl hne
  · cases hr
    rfl

end Sys2Proof.Machine
end

section
/-! PROOFS. 40_packet_codec.md: the classifier gives each class exactly on its condition. -/

namespace Sys2Proof

/-! ## A class and the header fields it carries -/

/-- The class of a packet that is no discard packet carries the header's two fields (40_packet_codec.md R90). -/
theorem fieldsOf_classOfFields {pid : BitVec 12} {seg : BitVec 3} {ppf : BitVec 8}
    (h : classOfFields pid seg ppf ≠ .discard) :
    Machine.fieldsOf (classOfFields pid seg ppf) = some (pid, seg) := by
  unfold classOfFields at h ⊢
  split_ifs at h ⊢ with hdiscard hspecial hnormal
  · exact absurd rfl h
  · obtain ⟨rfl, -⟩ := hspecial
    rfl
  · rfl
  · rfl

theorem classOfFields_eq_discard_iff {pid : BitVec 12} {seg : BitVec 3} {ppf : BitVec 8} :
    classOfFields pid seg ppf = .discard ↔ 0xF00 ≤ pid.toNat := by
  unfold classOfFields
  split_ifs with hdiscard <;> simp [hdiscard]

theorem classify_eq_discard_iff {b0 b1 b2 b3 : Byte} {ppf : BitVec 8} :
    classify b0 b1 b2 b3 ppf = .discard ↔ b0.toNat % 16 = 15 := by
  rw [classify_eq_classOfFields, classOfFields_eq_discard_iff, ← isDiscard_iff_packetId, isDiscard_iff]

/-- A class with fields is the header's class exactly when the geometry has it and its fields are the header's: the
conditions under which a class exists exclude each other, so the order of R90's tests adds nothing. -/
theorem classify_eq_iff {b0 b1 b2 b3 : Byte} {ppf : BitVec 8} {c : PacketClass} {pid : BitVec 12} {seg : BitVec 3}
    (hc : Machine.fieldsOf c = some (pid, seg)) :
    classify b0 b1 b2 b3 ppf = c ↔
      c.fits ppf = true ∧ pid.toNat = (b0.toNat % 16) * 256 + b1.toNat ∧ seg.toNat = (b0.toNat / 16) % 8 := by
  rw [← packetId_toNat, ← segmentId_toNat, ← BitVec.toNat_eq, ← BitVec.toNat_eq]
  constructor
  · intro h
    have hfields : Machine.fieldsOf c = some (packetId b0 b1, segmentId b0) := by
      rw [← h, classify_eq_classOfFields]
      refine fieldsOf_classOfFields fun hdiscard => ?_
      rw [← h, classify_eq_classOfFields, hdiscard] at hc
      cases hc
    cases hc.symm.trans hfields
    exact ⟨h ▸ classify_fits b0 b1 b2 b3 ppf, rfl, rfl⟩
  · rintro ⟨hfits, rfl, rfl⟩
    have henc : encodedFields c = (packetId b0 b1, segmentId b0) := by rw [encodedFields, hc, Option.getD_some]
    rw [classify_eq_classOfFields, ← classOfFields_encodedFields hfits, henc]

/-! ## The condition of a class as numbers (30_encoding.md R77) -/

theorem fits_special_iff {ppf : BitVec 8} {seg : BitVec 3} :
    (PacketClass.special seg).fits ppf = true ↔ ppf.toNat = 240 := by
  simp [PacketClass.fits, BitVec.toNat_eq]

theorem fits_normal_iff {ppf : BitVec 8} {pid : BitVec 12} {seg : BitVec 3} :
    (PacketClass.normal pid seg).fits ppf = true ↔ pid.toNat ≤ 59 ∧ ¬(pid.toNat = 20 ∧ ppf.toNat = 240) := by
  simp [PacketClass.fits, BitVec.toNat_eq, BitVec.le_def, imp_iff_not_or]

theorem fits_oor_iff {ppf : BitVec 8} {pid : BitVec 12} {seg : BitVec 3} :
    (PacketClass.oor pid seg).fits ppf = true ↔ 60 ≤ pid.toNat ∧ pid.toNat ≤ 3839 := by
  simp [PacketClass.fits, BitVec.lt_def, BitVec.le_def, Nat.succ_le_iff]

/-- Settles O7: a class is the header's fields under the class's condition, and the id 256 · nibble + byte 1 is below
256 exactly when the nibble is 0, below 3840 exactly when it is not 15. -/
theorem classifierFollowsItsFourTests : Obligations.ClassifierFollowsItsFourTests := by
  intro b0 b1 b2 b3 ppf
  have hb1 : b1.toNat < 256 := b1.isLt
  refine ⟨classify_eq_discard_iff, fun seg => ?special, fun pid seg => ?normal, fun pid seg => ?oor⟩
  case special =>
    rw [classify_eq_iff rfl, fits_special_iff, BitVec.toNat_ofNat]
    omega
  case normal =>
    rw [classify_eq_iff rfl, fits_normal_iff]
    omega
  case oor =>
    rw [classify_eq_iff rfl, fits_oor_iff]
    omega

end Sys2Proof
end

section
/-! PROOFS. 41_receiver.md: a presented packet is not received, dropped, or run as its row to the end of its step. -/

namespace Sys2Proof.Machine

/-! ## The three outcomes of a presented packet -/

theorem exec_rxUnarmed_of_unarmed {s : State} (ha : s.armed = false) : exec .rxUnarmed s = .next s.quietly :=
  if_neg (by simp [ha])

theorem exec_rxReceive_of_unarmed (p : Packet) {s : State} (ha : s.armed = false) :
    exec (.rxReceive p) s = .refused (.notEnabled "RX.RECEIVE") :=
  if_pos (by simp [ha])

theorem exec_rxDrop_of_resyncing {s : State} (ha : s.armed = true) (hr : s.resyncing = true) :
    exec .rxDrop s = .next s.packetEvent :=
  if_pos (by simp [State.dropping, ha, hr])

/-- With a resync pending the packet is not inspected (41_receiver.md R102). -/
theorem exec_rxReceive_of_resyncing (p : Packet) {s : State} (ha : s.armed = true) (hr : s.resyncing = true) :
    exec (.rxReceive p) s = .next s.packetEvent := by
  simp [exec, execRxReceive, ha, hr]

/-- With none pending the packet's class and payload go to the Frame Assembler (41_receiver.md R103). -/
theorem exec_rxReceive_of_assembling (p : Packet) {s : State} (ha : s.armed = true) (hr : s.resyncing = false) :
    exec (.rxReceive p) s = onPacket (p.classOf s.packetsPerFrame) p.payload s.packetEvent := by
  simp [exec, execRxReceive, ha, hr]

/-! ## A received packet is its row -/

/-- A `PKT` row that the state and the geometry admit runs the Frame Assembler on its class and payload (log 9). -/
theorem exec_toInstr_run {c : PacketClass} (pl : Payload) {s : State} (ha : s.armed = true) (hr : s.resyncing = false)
    (hf : c.fits s.packetsPerFrame = true) : exec (c.toInstr pl) s = onPacket c pl s.packetEvent := by
  cases c with
  | discard => exact assemble_run "PKT.DISCARD" _ pl s ha hr hf
  | special seg => exact assemble_run "PKT.SPECIAL" _ pl s ha hr hf
  | normal pid seg => exact assemble_run "PKT.NORMAL" _ pl s ha hr hf
  | oor pid seg => exact assemble_run "PKT.OOR" _ pl s ha hr hf

/-- The classifier gives only classes the geometry has, so the row of a received packet exists. -/
theorem exec_rxReceive_eq_toRow (p : Packet) {s : State} (ha : s.armed = true) (hr : s.resyncing = false) :
    exec (.rxReceive p) s = exec (p.toRow s.packetsPerFrame) s := by
  have hfits : (p.classOf s.packetsPerFrame).fits s.packetsPerFrame = true := classify_fits p.b0 p.b1 p.b2 p.b3 _
  rw [exec_rxReceive_of_assembling p ha hr, Packet.toRow, exec_toInstr_run p.payload ha hr hfits]

/-- The event is the reception itself, not its outcome (41_receiver.md R101). -/
theorem exec_rxReceive_out {p : Packet} {s t : State} (h : exec (.rxReceive p) s = .next t) :
    t.out = ⟨true, none, none, none⟩ := by
  obtain ⟨-, ⟨-, rfl⟩ | ⟨-, hn⟩⟩ := execRxReceive_next h
  · rfl
  · exact onPacket_out hn

/-- Settles O16: the drop, the dispatch to the row, the refusal and the event, one lemma each. -/
theorem receivedPacketRunsItsRow : Obligations.ReceivedPacketRunsItsRow := by
  intro p s
  refine ⟨fun ha hr => ?_, exec_rxReceive_eq_toRow p, exec_rxReceive_of_unarmed p,
    fun _ => exec_rxReceive_out, rfl⟩
  rw [exec_rxReceive_of_resyncing p ha hr, exec_rxDrop_of_resyncing ha hr]

/-! ## Every received packet is handled to the end -/

/-- Below COMPLETE the counter names an existing row: I1 keeps it below the geometry, which has at most 240 rows. -/
theorem Invariants.nextRow_lt {s : State} (h : Invariants s) (hne : s.expectedPacketId ≠ s.packetsPerFrame) :
    s.nextRow < 240 :=
  Nat.lt_of_lt_of_le (h.count_lt hne) (packetsPerFrame_toNat_le s)

/-- The accept step is the only one that can stop, for want of its row (20_memory.md R54; log 11). -/
theorem onPacket_completes (c : PacketClass) (pl : Payload) {s : State}
    (hrow : s.expectedPacketId ≠ s.packetsPerFrame → s.nextRow < 240) : ∃ t, onPacket c pl s = .next t := by
  unfold onPacket
  split
  · exact ⟨_, rfl⟩
  · split_ifs with hcomplete
    · exact ⟨_, rfl⟩
    · exact ⟨_, rfl⟩
    · exact ⟨_, rfl⟩
    · exact ⟨_, if_pos (hrow hcomplete)⟩

theorem exec_rxReceive_completes (p : Packet) {s : State} (hs : Invariants s) (ha : s.armed = true) :
    ∃ t, exec (.rxReceive p) s = .next t := by
  cases hr : s.resyncing with
  | true => exact ⟨_, exec_rxReceive_of_resyncing p ha hr⟩
  | false =>
    rw [exec_rxReceive_of_assembling p ha hr]
    exact onPacket_completes _ _ (hs.emit _).nextRow_lt

/-- The variables a reception may write (60_exceptions.md R172), with the outputs; all the others stay. -/
theorem exec_rxReceive_frame {p : Packet} {s t : State} (h : exec (.rxReceive p) s = .next t) :
    t = { s with
      resyncing := t.resyncing, expectedPacketId := t.expectedPacketId,
      expectedSegmentId := t.expectedSegmentId, capturing := t.capturing, fb := t.fb, out := t.out } := by
  obtain ⟨-, ⟨-, rfl⟩ | ⟨-, hn⟩⟩ := execRxReceive_next h
  · rfl
  · rw [onPacket_frame hn]; rfl

/-- Settles O17: the row an accept step needs exists under the invariants, and a completed reception has its event and
its frame. -/
theorem everyReceivedPacketCompletes : Obligations.EveryReceivedPacketCompletes := by
  intro p s hs ha
  obtain ⟨t, ht⟩ := exec_rxReceive_completes p hs ha
  exact ⟨t, ht, exec_rxReceive_out ht, exec_rxReceive_frame ht⟩

/-! ## Packets that change nothing -/

/-- Settles O18: the event is the only thing either row writes. -/
theorem droppedPacketChangesNothing : Obligations.DroppedPacketChangesNothing :=
  fun _ ha hr => ⟨exec_rxDrop_of_resyncing ha hr, fun p => exec_rxReceive_of_resyncing p ha hr⟩

/-- With reception stopped a presented packet decodes to `RX.UNARMED` (41_receiver.md R104). -/
theorem step_packet_of_unarmed {s : State} {p : Packet} {rest : List Stimulus} (ha : s.armed = false)
    (hs : s.schedule = .packet p.bytes :: rest) : step s = exec .rxUnarmed { s with schedule := rest } := by
  have hdec : decode s.armed (.packet p.bytes) = .ok .rxUnarmed := by
    rw [decode_packet_of_ok (parsePacket_bytes p), ha]; rfl
  exact step_of_fetch_ok (fetch_of_decode_ok hs hdec)

/-- Settles O19: the row writes nothing, and it is the row of a step that is presented a packet. -/
theorem unarmedPacketIsNotReceived : Obligations.UnarmedPacketIsNotReceived := by
  intro s ha
  refine ⟨exec_rxUnarmed_of_unarmed ha, fun p rest hs => ?_⟩
  rw [step_packet_of_unarmed ha hs]
  exact exec_rxUnarmed_of_unarmed ha

end Sys2Proof.Machine
end

section
/-! PROOFS. 42_frame_assembler.md: what each branch of the Frame Assembler's decision writes, which step completes a
frame, that a stream in the expected order fills one, and where the segment field is read. -/

namespace Sys2Proof.Machine

/-! ## The derived values -/

theorem zero_ne_packetsPerFrame (s : State) : 0#8 ≠ s.packetsPerFrame := by
  obtain h | h := packetsPerFrame_cases s <;> rw [h] <;> decide

theorem faState_eq_hunting_iff (s : State) :
    s.faState = .hunting ↔ s.resyncing = false ∧ s.expectedPacketId = 0#8 := by
  cases hr : s.resyncing with
  | true => simp [faState_of_resyncing hr]
  | false =>
    rw [faState_of_not_resyncing hr]
    split_ifs with hc h0
    · simpa [hc] using (zero_ne_packetsPerFrame s).symm
    · simp [h0]
    · simp [h0]

/-! ## The branches of the decision (R111) -/

/-- The counter is reduced modulo 60 before it is compared with the id on the wire (R123). -/
theorem expectedId_toNat (s : State) : s.expectedId.toNat = s.expectedPacketId.toNat % 60 := by
  rw [State.expectedId, BitVec.toNat_setWidth_of_le (by decide), BitVec.toNat_umod]
  rfl

theorem eq_expectedId_iff {pid : BitVec 12} {s : State} :
    pid = s.expectedId ↔ pid.toNat = s.expectedPacketId.toNat % 60 := by
  rw [← expectedId_toNat, BitVec.toNat_eq]

theorem wrongSegment_iff {expected : BitVec 3} {c : PacketClass} :
    wrongSegment expected c = true ↔ ∃ seg, c = .special seg ∧ seg ≠ expected := by
  cases c <;> simp [wrongSegment]

theorem onPacket_of_count_eq (c : PacketClass) (pl : Payload) {s : State}
    (hc : s.expectedPacketId = s.packetsPerFrame) : onPacket c pl s = .next s := by
  cases hf : fieldsOf c <;> simp [onPacket, hf, hc]

section
variable {c : PacketClass} {pid : BitVec 12} {seg : BitVec 3} (pl : Payload) {s : State}

theorem count_ne_of_lt (h : s.expectedPacketId.toNat < s.packetsPerFrame.toNat) :
    s.expectedPacketId ≠ s.packetsPerFrame :=
  fun he => absurd h (by simp [he])

theorem nextRow_lt_of_count_lt (h : s.expectedPacketId.toNat < s.packetsPerFrame.toNat) : s.nextRow < 240 :=
  Nat.lt_of_lt_of_le h (packetsPerFrame_toNat_le s)

theorem onPacket_idMismatch (hf : fieldsOf c = some (pid, seg)) (hc : s.expectedPacketId ≠ s.packetsPerFrame)
    (hid : pid ≠ s.expectedId) : onPacket c pl s = .next s.idMismatch := by
  simp [onPacket, hf, hc, hid]

theorem onPacket_segmentMismatch (hf : fieldsOf c = some (pid, seg)) (hc : s.expectedPacketId ≠ s.packetsPerFrame)
    (hid : pid = s.expectedId) (hw : wrongSegment s.expectedSegmentId c = true) :
    onPacket c pl s = .next s.segmentMismatch := by
  simp [onPacket, hf, hc, hid, hw]

theorem onPacket_accept (hf : fieldsOf c = some (pid, seg)) (hc : s.expectedPacketId ≠ s.packetsPerFrame)
    (hid : pid = s.expectedId) (hw : wrongSegment s.expectedSegmentId c = false) (hrow : s.nextRow < 240) :
    onPacket c pl s = .next (s.accepted pl) := by
  simp [onPacket, hf, hc, hid, hw, acceptPacket, hrow]

/-! ## What an operation comes to in a state -/

theorem idMismatch_of_count_zero (h : s.expectedPacketId = 0#8) : s.idMismatch = s.restartCounters := if_pos h

theorem idMismatch_of_count_ne_zero (h : s.expectedPacketId ≠ 0#8) : s.idMismatch = s.raiseSyncLost := if_neg h

theorem segmentMismatch_of_first (h : s.expectedSegmentId = 1#3) : s.segmentMismatch = s.restartCounters := if_pos h

theorem segmentMismatch_of_later (h : s.expectedSegmentId ≠ 1#3) : s.segmentMismatch = s.raiseSyncLost := if_neg h

variable (s) in
theorem accepted_read_inside {k : Nat} (hk : k < 160) :
    (s.accepted pl).fb.read (160 * s.expectedPacketId.toNat + k) = some pl[k] :=
  Memory.read_writeRow_inside s.fb s.nextRow pl k hk

variable (s) in
theorem accepted_read_outside {a : Nat}
    (h : a < 160 * s.expectedPacketId.toNat ∨ 160 * s.expectedPacketId.toNat + 160 ≤ a) :
    (s.accepted pl).fb.read a = s.fb.read a :=
  Memory.read_writeRow_outside s.fb s.nextRow pl a h

theorem advancedId_mod_eq_zero_iff (hrow : s.nextRow < 240) :
    s.advancedId % 60#8 = 0#8 ↔ (s.expectedPacketId.toNat + 1) % 60 = 0 := by
  rw [BitVec.toNat_eq, BitVec.toNat_umod, advancedId_toNat hrow]
  rfl

theorem advancedId_eq_packetsPerFrame_iff (hrow : s.nextRow < 240) :
    s.advancedId = s.packetsPerFrame ↔ s.expectedPacketId.toNat + 1 = s.packetsPerFrame.toNat := by
  rw [BitVec.toNat_eq, advancedId_toNat hrow]

/-- I2 in the first segment: the segment counter is 1 exactly below 60 accepted packets. -/
theorem Invariants.firstSegment_iff (h : Invariants s) :
    s.expectedSegmentId = 1#3 ↔ s.expectedPacketId.toNat < 60 := by
  rw [BitVec.toNat_eq, h.segmentOfCount, BitVec.toNat_ofNat]
  omega

theorem Invariants.restartCounters_eq_self (h : Invariants s) (h0 : s.expectedPacketId = 0#8) :
    s.restartCounters = s := by
  have hseg : s.expectedSegmentId = 1#3 := h.firstSegment_iff.mpr (by simp [h0])
  change { s with expectedPacketId := 0#8, expectedSegmentId := 1#3 } = s
  rw [← h0, ← hseg]

/-! ## The rows of each branch -/

theorem exec_toInstr_idMismatch (ha : s.armed = true) (hr : s.resyncing = false)
    (hfits : c.fits s.packetsPerFrame = true) (hf : fieldsOf c = some (pid, seg))
    (hc : s.expectedPacketId ≠ s.packetsPerFrame) (hid : pid.toNat ≠ s.expectedPacketId.toNat % 60) :
    exec (c.toInstr pl) s = .next s.packetEvent.idMismatch := by
  rw [exec_toInstr_run pl ha hr hfits]
  exact onPacket_idMismatch pl hf hc (mt eq_expectedId_iff.mp hid)

/-- At a special packet's place the id matches, so the segment decides. -/
theorem exec_pktSpecial_segmentMismatch (ha : s.armed = true) (hr : s.resyncing = false)
    (hppf : s.packetsPerFrame = 240#8) (hplace : s.expectedPacketId.toNat % 60 = 20)
    (hlt : s.expectedPacketId.toNat < 240) (hseg : seg ≠ s.expectedSegmentId) :
    exec (.pktSpecial seg pl) s = .next s.packetEvent.segmentMismatch := by
  have hfits : (PacketClass.special seg).fits s.packetsPerFrame = true := decide_eq_true hppf
  have hc : s.expectedPacketId ≠ s.packetsPerFrame := count_ne_of_lt (by rw [hppf]; exact hlt)
  refine (exec_toInstr_run pl ha hr hfits).trans (onPacket_segmentMismatch pl rfl hc ?_ ?_)
  · exact eq_expectedId_iff.mpr hplace.symm
  · exact wrongSegment_iff.mpr ⟨seg, rfl, hseg⟩

theorem exec_toInstr_accept (ha : s.armed = true) (hr : s.resyncing = false)
    (hlt : s.expectedPacketId.toNat < s.packetsPerFrame.toNat) (hfits : c.fits s.packetsPerFrame = true)
    (hf : fieldsOf c = some (pid, seg)) (hid : pid.toNat = s.expectedPacketId.toNat % 60)
    (hseg : c = .special seg → seg = s.expectedSegmentId) :
    exec (c.toInstr pl) s = .next (s.packetEvent.accepted pl) := by
  have hw : wrongSegment s.expectedSegmentId c = false := by
    rw [Bool.eq_false_iff, Ne, wrongSegment_iff]
    rintro ⟨seg', rfl, hne⟩
    cases hf
    exact hne (hseg rfl)
  rw [exec_toInstr_run pl ha hr hfits]
  exact onPacket_accept pl hf (count_ne_of_lt hlt) (eq_expectedId_iff.mpr hid) hw (nextRow_lt_of_count_lt hlt)

end

/-! ## Packets that change nothing (R112, R113) -/

/-- Settles O21: a discard packet has no fields, so the assembler decides nothing. -/
theorem discardPacketChangesNothing : Obligations.DiscardPacketChangesNothing :=
  fun pl _ ha hr => exec_toInstr_run (c := .discard) pl ha hr rfl

/-- Settles O22: the counter of COMPLETE is the geometry's, and there the assembler leaves the state. -/
theorem completeFrameIgnoresPackets : Obligations.CompleteFrameIgnoresPackets := by
  intro c pl s ha hcomplete hfits
  obtain ⟨hr, hc⟩ := (faState_eq_complete_iff s).mp hcomplete
  rw [exec_toInstr_run pl ha hr hfits]
  exact onPacket_of_count_eq c pl hc

/-! ## A mismatch of the id (R116, R117, R118) -/

/-- Settles O23: the mismatch in Hunting restarts the counters, which I2 says stand at their start. -/
theorem huntingIgnoresOtherIds : Obligations.HuntingIgnoresOtherIds := by
  intro c pid seg pl s ha hr h0 hfits hf hpid
  have hid : pid.toNat ≠ s.expectedPacketId.toNat % 60 := by
    rw [h0]
    exact fun h => hpid (BitVec.eq_of_toNat_eq h)
  have hrun : exec (c.toInstr pl) s = .next s.packetEvent.restartCounters := by
    rw [exec_toInstr_idMismatch pl ha hr hfits hf (h0 ▸ zero_ne_packetsPerFrame s) hid,
      idMismatch_of_count_zero (s := s.packetEvent) h0]
  refine ⟨hrun, fun hs => ?_⟩
  rw [hrun, Invariants.restartCounters_eq_self (s := s.packetEvent) (hs.emit _) h0]
  rfl

/-- Settles O24: the mismatch outside Hunting is the write of `resyncing`. -/
theorem mismatchOutsideHuntingLosesSync : Obligations.MismatchOutsideHuntingLosesSync := by
  intro c pid seg pl s ha hr hpos hlt hfits hf hid
  have h0 : s.expectedPacketId ≠ 0#8 := fun h0 => absurd hpos (by simp [h0])
  rw [exec_toInstr_idMismatch pl ha hr hfits hf (count_ne_of_lt hlt) hid,
    idMismatch_of_count_ne_zero (s := s.packetEvent) h0]
  rfl

/-- Settles O27: no number modulo 60 is 60 or more, so the packet is the mismatch of Hunting or the one outside it. -/
theorem outOfRangePacketIsAlwaysAMismatch : Obligations.OutOfRangePacketIsAlwaysAMismatch := by
  intro pid seg pl s hwf ha hr hlt
  have hfits : (PacketClass.oor pid seg).fits s.packetsPerFrame = true := hwf
  obtain ⟨hlo, -⟩ := fits_oor_iff.mp hfits
  refine ⟨fun h0 => ?hunting, fun h0 => ?filling⟩
  case hunting =>
    have hpid : pid ≠ 0#12 := fun h => absurd hlo (by simp [h])
    exact (huntingIgnoresOtherIds (.oor pid seg) pid seg pl s ha hr h0 hfits rfl hpid).1
  case filling =>
    have hpos : 0 < s.expectedPacketId.toNat := Nat.pos_of_ne_zero fun h => h0 (BitVec.eq_of_toNat_eq h)
    exact mismatchOutsideHuntingLosesSync (.oor pid seg) pid seg pl s ha hr hpos hlt hfits rfl (by omega)

/-! ## A mismatch of the segment (R119, R120) -/

/-- Settles O25: at 20 the segment counter is 1 by I2, and the counters restart. -/
theorem wrongFirstSegmentReturnsToHunting : Obligations.WrongFirstSegmentReturnsToHunting := by
  intro seg pl s hs ha hr hppf hid hseg
  have heseg : s.expectedSegmentId = 1#3 := hs.firstSegment_iff.mpr (by simp [hid])
  refine ⟨s.packetEvent.restartCounters, ?_, ?_, rfl⟩
  · rw [exec_pktSpecial_segmentMismatch pl ha hr hppf (by simp [hid]) (by simp [hid]) (heseg ▸ hseg),
      segmentMismatch_of_first (s := s.packetEvent) heseg]
  · exact (faState_eq_hunting_iff _).mpr ⟨hr, rfl⟩

/-- Settles O26: at 80 and later the segment counter is above 1 by I2, and sync is lost. -/
theorem wrongLaterSegmentLosesSync : Obligations.WrongLaterSegmentLosesSync := by
  intro seg pl s hs ha hr hppf hid hseg
  simp only [List.mem_cons, List.not_mem_nil, or_false] at hid
  have heseg : s.expectedSegmentId ≠ 1#3 := fun h => absurd (hs.firstSegment_iff.mp h) (by omega)
  rw [exec_pktSpecial_segmentMismatch pl ha hr hppf (by omega) (by omega) hseg,
    segmentMismatch_of_later (s := s.packetEvent) heseg]
  rfl

/-! ## The accept step (R121) -/

/-- Settles O28: the accept step, with each counter's test read as one of numbers. -/
theorem matchingPacketIsAccepted : Obligations.MatchingPacketIsAccepted := by
  intro c pid seg pl s ha hr hlt hfits hf hid hseg
  have hrow : s.nextRow < 240 := nextRow_lt_of_count_lt hlt
  refine ⟨_, exec_toInstr_accept pl ha hr hlt hfits hf hid hseg, fun _ hk => accepted_read_inside pl s.packetEvent hk,
    fun _ houtside => accepted_read_outside pl s.packetEvent houtside, advancedId_toNat hrow, ?segment, ?capture, rfl⟩
  case segment => simp [advancedId_mod_eq_zero_iff hrow]
  case capture => simp [advancedId_eq_packetsPerFrame_iff hrow]

/-! ## Which step completes a frame (R122) -/

theorem not_complete_of_count_zero {t : State} (h : t.expectedPacketId = 0#8) : t.faState ≠ .complete := by
  rw [Ne, faState_eq_complete_iff, h]
  exact fun ⟨_, he⟩ => zero_ne_packetsPerFrame t he

theorem not_complete_of_resyncing {t : State} (h : t.resyncing = true) : t.faState ≠ .complete := by
  rw [faState_of_resyncing h]
  decide

/-- Only an accept step completes a frame: every other step keeps the assembler's state, restarts the counter or leaves
a resync pending. -/
theorem exec_completes_frame {i : Instr} {s t : State} (h : exec i s = .next t) (hs : s.faState ≠ .complete)
    (ht : t.faState = .complete) :
    agentOf i = .producer ∧ s.armed = true ∧ s.resyncing = false ∧ s.nextRow < 240 ∧
      ∃ pl, t = s.packetEvent.accepted pl := by
  obtain ⟨o, rfl⟩ | ⟨ha, hr, c, pl, -, hn, hi⟩ | ⟨hh, vv, -, -, rfl⟩ | ⟨b, -, rfl⟩ | ⟨-, -, -, rfl⟩ |
    ⟨-, -, rfl⟩ | ⟨-, rfl⟩ | ⟨-, -, rfl⟩ | ⟨-, rfl⟩ := exec_next h
  · exact absurd ht hs
  · obtain rfl | ⟨-, rfl | rfl | ⟨hrow, rfl⟩⟩ := onPacket_writes hn
    · exact absurd ht hs
    · exact absurd ht (not_complete_of_count_zero rfl)
    · exact absurd ht (not_complete_of_resyncing rfl)
    · exact ⟨agentOf_packet hi, ha, hr, hrow, pl, rfl⟩
  · exact absurd ht (not_complete_of_count_zero rfl)
  · exact absurd ht hs
  · exact absurd ht (not_complete_of_count_zero rfl)
  · exact absurd ht hs
  · exact absurd ((countTick_sameFrame s).faState.symm.trans ht) hs
  · exact absurd ht (not_complete_of_count_zero rfl)
  · exact absurd ht (not_complete_of_resyncing rfl)

/-- Settles O29: the completing step is an accept step, and the counter it leaves is the geometry's. -/
theorem onlyTheLastAcceptCompletesAFrame : Obligations.OnlyTheLastAcceptCompletesAFrame := by
  intro i s t h hs ht
  obtain ⟨hi, ha, hr, hrow, pl, rfl⟩ := exec_completes_frame h hs ht
  obtain ⟨-, hlast⟩ := (faState_eq_complete_iff _).mp ht
  exact ⟨hi, ha, hr, (advancedId_eq_packetsPerFrame_iff hrow).mp hlast, hlast, if_pos hlast, decide_eq_true ht,
    fun _ hk => Option.isSome_of_eq_some (accepted_read_inside pl s.packetEvent hk)⟩

/-! ## A stream in the expected order (R122; 95_test_vectors.md S1, S8) -/

/-- The header of the packet expected at count `k`: the id of its place and, where it is a special packet's place, the
segment of its place. -/
def HeaderInPlace (ppf : BitVec 8) (k : Nat) (p : Packet) : Prop :=
  (packetId p.b0 p.b1).toNat = k % 60 ∧
    (ppf = 240#8 → k % 60 = 20 → (segmentId p.b0).toNat = 1 + k / 60)

theorem fieldsOf_classOf {p : Packet} (h : (packetId p.b0 p.b1).toNat < 60) (ppf : BitVec 8) :
    fieldsOf (p.classOf ppf) = some (packetId p.b0 p.b1, segmentId p.b0) := by
  rw [Packet.classOf, classify_eq_classOfFields]
  refine fieldsOf_classOfFields ?_
  rw [Ne, classOfFields_eq_discard_iff]
  omega

/-- A packet whose header is in place is accepted: I2 makes the segment of its place the expected one. -/
theorem exec_rxReceive_accept {p : Packet} {s : State} (hs : Invariants s) (ha : s.armed = true)
    (hr : s.resyncing = false) (hlt : s.expectedPacketId.toNat < s.packetsPerFrame.toNat)
    (hp : HeaderInPlace s.packetsPerFrame s.expectedPacketId.toNat p) :
    exec (.rxReceive p) s = .next (s.packetEvent.accepted p.payload) := by
  obtain ⟨hid, hsegment⟩ := hp
  have hfits : (p.classOf s.packetsPerFrame).fits s.packetsPerFrame = true := classify_fits p.b0 p.b1 p.b2 p.b3 _
  have hf : fieldsOf (p.classOf s.packetsPerFrame) = some (packetId p.b0 p.b1, segmentId p.b0) :=
    fieldsOf_classOf (by omega) s.packetsPerFrame
  rw [exec_rxReceive_eq_toRow p ha hr]
  refine exec_toInstr_accept p.payload ha hr hlt hfits hf hid fun hspecial => ?_
  rw [hspecial] at hfits hf
  have hppf : s.packetsPerFrame = 240#8 := of_decide_eq_true hfits
  have hplace : s.expectedPacketId.toNat % 60 = 20 := by
    rw [← hid, ← (Prod.mk.inj (Option.some.inj hf)).1]
    rfl
  apply BitVec.eq_of_toNat_eq
  rw [hsegment hppf hplace, hs.segmentOfCount]

/-- Where a run from `s` on the first `n` packets of a stream in place has come to: all `n` are counted, their payloads
stand in the rows of their places, and the next one will reach the assembler. -/
structure StreamedTo (s : State) (p : Nat → Packet) (n : Nat) (t : State) : Prop where
  run : execAll ((List.range n).map fun k => .rxReceive (p k)) s = .next t
  invariants : Invariants t
  armed : t.armed = true
  resyncing : t.resyncing = false
  packetsPerFrame : t.packetsPerFrame = s.packetsPerFrame
  count : t.expectedPacketId.toNat = n
  rows : ∀ k j, k < n → (hj : j < 160) → t.fb.read (160 * k + j) = some (p k).payload[j]

theorem StreamedTo.accept {s t : State} {p : Nat → Packet} {n : Nat} (h : StreamedTo s p n t)
    (hn : n < s.packetsPerFrame.toNat) (hp : HeaderInPlace s.packetsPerFrame n (p n)) :
    StreamedTo s p (n + 1) (t.packetEvent.accepted (p n).payload) := by
  obtain rfl := h.count
  have hlt : t.expectedPacketId.toNat < t.packetsPerFrame.toNat := by rw [h.packetsPerFrame]; exact hn
  have hstep := exec_rxReceive_accept h.invariants h.armed h.resyncing hlt (h.packetsPerFrame ▸ hp)
  refine {
    run := ?_
    invariants := exec_keeps_invariants h.invariants hstep
    armed := h.armed
    resyncing := h.resyncing
    packetsPerFrame := h.packetsPerFrame
    count := advancedId_toNat (nextRow_lt_of_count_lt hlt)
    rows := fun k j hk hj => ?_ }
  · rw [List.range_succ, List.map_append]
    exact execAll_append h.run (by simp [execAll, hstep])
  · obtain hold | rfl : k < t.expectedPacketId.toNat ∨ k = t.expectedPacketId.toNat := by omega
    · have houtside : 160 * k + j < 160 * t.expectedPacketId.toNat := by omega
      rw [accepted_read_outside _ t.packetEvent (.inl houtside)]
      exact h.rows k j hold hj
    · exact accepted_read_inside _ t.packetEvent hj

theorem streamedTo_of_headersInPlace {s : State} {p : Nat → Packet} (hs : Invariants s) (ha : s.armed = true)
    (hr : s.resyncing = false) (h0 : s.expectedPacketId = 0#8) {n : Nat} (hn : n ≤ s.packetsPerFrame.toNat)
    (hp : ∀ k, k < n → HeaderInPlace s.packetsPerFrame k (p k)) : ∃ t, StreamedTo s p n t := by
  induction n with
  | zero => exact ⟨s, rfl, hs, ha, hr, rfl, by simp [h0], nofun⟩
  | succ n ih =>
    obtain ⟨t, ht⟩ := ih (by omega) fun k hk => hp k (by omega)
    exact ⟨_, ht.accept hn (hp n (Nat.lt_succ_self n))⟩

/-- Settles O30: the stream is counted to its end; at the geometry's count the frame is COMPLETE, and no capture is
outstanding there (I6). -/
theorem orderedStreamFillsTheFrame : Obligations.OrderedStreamFillsTheFrame := by
  intro s n p hs ha hhunting hn hp
  obtain ⟨hr, h0⟩ := (faState_eq_hunting_iff s).mp hhunting
  obtain ⟨t, ht⟩ := streamedTo_of_headersInPlace hs ha hr h0 hn hp
  refine ⟨t, ht.run, ht.count, ht.resyncing, ?_, fun hlast => ?_, ht.rows⟩
  · simp [faState_eq_complete_iff, ht.resyncing, BitVec.toNat_eq, ht.count, ht.packetsPerFrame]
  · rw [Bool.eq_false_iff]
    intro hcapturing
    have hlt : t.expectedPacketId.toNat < t.packetsPerFrame.toNat :=
      ht.invariants.capturingMeansUnfinished hcapturing
    rw [ht.count, ht.packetsPerFrame] at hlt
    omega

/-! ## Where the segment field is read (R124) -/

/-- Fields that are not a special packet's give a class without a segment, or one whose segment the assembler does not
read: `wrongSegment` looks at a special packet's only. -/
theorem onPacket_classOfFields_segment {pid : BitVec 12} {ppf : BitVec 8} (h : ¬(pid = 20#12 ∧ ppf = 240#8))
    (seg seg' : BitVec 3) (pl : Payload) (s : State) :
    onPacket (classOfFields pid seg ppf) pl s = onPacket (classOfFields pid seg' ppf) pl s := by
  rw [classOfFields, classOfFields, if_neg h, if_neg h]
  split_ifs
  · rfl
  · rfl
  · rfl

/-- Settles O32: a packet reaches the assembler through its class, and a class that is not special gives the same step
at every segment field. -/
theorem segmentFieldIsReadOfSpecialPacketsOnly : Obligations.SegmentFieldIsReadOfSpecialPacketsOnly := by
  intro s p q h1 hpl h0 hspecial
  have hid : packetId p.b0 p.b1 = packetId q.b0 q.b1 := by
    apply BitVec.eq_of_toNat_eq
    rw [packetId_toNat, packetId_toNat, h0, h1]
  have hnot : ¬(packetId p.b0 p.b1 = 20#12 ∧ s.packetsPerFrame = 240#8) := by
    rintro ⟨h20, h240⟩
    obtain h60 | h := hspecial
    · exact absurd (h60.symm.trans h240) (by decide)
    · exact h h20
  cases ha : s.armed with
  | false => rw [exec_rxReceive_of_unarmed p ha, exec_rxReceive_of_unarmed q ha]
  | true =>
    cases hr : s.resyncing with
    | true => rw [exec_rxReceive_of_resyncing p ha hr, exec_rxReceive_of_resyncing q ha hr]
    | false =>
      rw [exec_rxReceive_of_assembling p ha hr, exec_rxReceive_of_assembling q ha hr, Packet.classOf, Packet.classOf,
        classify_eq_classOfFields, classify_eq_classOfFields, ← hid, ← hpl]
      exact onPacket_classOfFields_segment hnot (segmentId p.b0) (segmentId q.b0) p.payload _

end Sys2Proof.Machine
end

section
/-! PROOFS. 43_sync_controller.md: the three steps of the recovery procedure, what each row does to the recovery FSM, and
how many ticks a re-arming takes. -/

namespace Sys2Proof.Machine

/-! ## The guards and the rows -/

theorem recoveryCanStart_iff {s : State} :
    s.recoveryCanStart = true ↔ s.resyncing = true ∧ s.capturing = true ∧ s.scState = .idle := by
  simp [State.recoveryCanStart, and_assoc]

theorem recoveryCanFinish_iff {s : State} :
    s.recoveryCanFinish = true ↔ s.scState = .quiet ∧ s.quietCnt = s.params.quietTicks := by
  simp [State.recoveryCanFinish]

theorem exec_scStart_of_enabled {s : State} (h : s.recoveryCanStart = true) :
    exec .scStart s = .next s.beginQuiet.quietly := if_pos h

theorem exec_scStart_refused {s : State} (h : ¬s.recoveryCanStart = true) :
    exec .scStart s = .refused (.notEnabled "SC.START") := if_neg h

theorem exec_scFinish_of_enabled {s : State} (h : s.recoveryCanFinish = true) :
    exec .scFinish s = .next s.returnFromResync.quietly := if_pos h

theorem exec_scFinish_refused {s : State} (h : ¬s.recoveryCanFinish = true) :
    exec .scFinish s = .refused (.notEnabled "SC.FINISH") := if_neg h

theorem exec_scTick (s : State) : exec .scTick s = .next s.countTick.quietly := rfl

theorem countTick_of_counting {s : State} (h : s.scState = .quiet ∧ s.quietCnt < s.params.quietTicks) :
    s.countTick = { s with quietCnt := s.quietCnt + 1 } := if_pos h

theorem countTick_of_not_counting {s : State} (h : ¬(s.scState = .quiet ∧ s.quietCnt < s.params.quietTicks)) :
    s.countTick = s := if_neg h

/-- Settles O34: the row runs exactly under its guard. -/
theorem recoveryStartStopsReception : Obligations.RecoveryStartStopsReception := by
  intro s
  exact ⟨fun hr hc hi => exec_scStart_of_enabled (recoveryCanStart_iff.mpr ⟨hr, hc, hi⟩),
    fun h => exec_scStart_refused (mt recoveryCanStart_iff.mp h)⟩

/-- Settles O35: the tick counts or leaves the state, and the row always completes. -/
theorem tickCountsTheQuietInterval : Obligations.TickCountsTheQuietInterval := by
  intro s
  refine ⟨fun hq hlt => ?counting, fun h => ?otherwise⟩
  case counting => rw [exec_scTick, countTick_of_counting ⟨hq, hlt⟩]; rfl
  case otherwise => rw [exec_scTick, countTick_of_not_counting h]; rfl

/-- Settles O36: the row runs exactly under its guard; no resync pending and the counter at 0 is Hunting. -/
theorem recoveryFinishRestartsReception : Obligations.RecoveryFinishRestartsReception := by
  intro s
  refine ⟨fun hq hcnt => ?enabled, fun h => exec_scFinish_refused (mt recoveryCanFinish_iff.mp h)⟩
  case enabled =>
    have hhunting : s.returnFromResync.quietly.faState = .hunting := (faState_eq_hunting_iff _).mpr ⟨rfl, rfl⟩
    exact ⟨_, exec_scFinish_of_enabled (recoveryCanFinish_iff.mpr ⟨hq, hcnt⟩), hhunting, rfl⟩

/-! ## What a row does to the recovery FSM -/

/-- What a row does to `sc_state` and `quiet_cnt` (10_state.md R28, R29). -/
theorem exec_recovery {i : Instr} {s t : State} (h : exec i s = .next t) :
    (t.scState = s.scState ∧ t.quietCnt = s.quietCnt) ∨
      (i = .scStart ∧ s.recoveryCanStart = true ∧ t.scState = .quiet ∧ t.quietCnt = 0) ∨
      (i = .scTick ∧ s.quietCnt < s.params.quietTicks ∧ t.scState = s.scState ∧ t.quietCnt = s.quietCnt + 1) ∨
      (i = .scFinish ∧ s.recoveryCanFinish = true) ∨
      (i = .reset ∧ t.scState = .idle) := by
  obtain ⟨o, rfl⟩ | ⟨-, -, c, pl, -, hn, -⟩ | ⟨hh, vv, -, -, rfl⟩ | ⟨b, -, rfl⟩ | ⟨-, -, -, rfl⟩ |
    ⟨hi, hg, rfl⟩ | ⟨hi, rfl⟩ | ⟨hi, hg, -⟩ | ⟨hi, rfl⟩ := exec_next h
  · exact .inl ⟨rfl, rfl⟩
  · rw [onPacket_frame hn]; exact .inl ⟨rfl, rfl⟩
  · exact .inl ⟨rfl, rfl⟩
  · exact .inl ⟨rfl, rfl⟩
  · exact .inl ⟨rfl, rfl⟩
  · exact .inr (.inl ⟨hi, hg, rfl, rfl⟩)
  · obtain ⟨-, hlt, e⟩ | ⟨-, e⟩ := countTick_cases s <;> rw [e]
    · exact .inr (.inr (.inl ⟨hi, hlt, rfl, rfl⟩))
    · exact .inl ⟨rfl, rfl⟩
  · exact .inr (.inr (.inr (.inl ⟨hi, hg⟩)))
  · exact .inr (.inr (.inr (.inr ⟨hi, rfl⟩)))

/-! ## An enabled recovery step stays enabled -/

/-- The two guards exclude each other by `sc_state`. -/
theorem not_canFinish_of_canStart {s : State} (h : s.recoveryCanStart = true) : ¬s.recoveryCanFinish = true := by
  obtain ⟨-, -, hidle⟩ := recoveryCanStart_iff.mp h
  rw [recoveryCanFinish_iff, hidle]
  exact fun ⟨hquiet, _⟩ => nomatch hquiet

theorem ne_scFinish_of_canStart {i : Instr} {s t : State} (h : exec i s = .next t) (hg : s.recoveryCanStart = true) :
    i ≠ .scFinish := by
  rintro rfl
  rw [exec_scFinish_refused (not_canFinish_of_canStart hg)] at h
  cases h

/-- A packet ends a capture by completing a frame, which it cannot while a resync is pending. -/
theorem exec_keeps_capture_pending {i : Instr} {s t : State} (h : exec i s = .next t) (hr : s.resyncing = true)
    (hc : s.capturing = true) (hi : i ≠ .scFinish) : (t.resyncing = true ∧ t.capturing = true) ∨ i = .reset := by
  have hrt : t.resyncing = true :=
    Bool.of_not_eq_false fun ht => hi ((onlyRecoveryClearsResyncing i s t h).1 hr ht)
  cases hct : t.capturing with
  | true => exact .inl ⟨hrt, rfl⟩
  | false =>
    obtain hreset | ⟨-, hcomplete⟩ := (captureEndsOnlyByCompletionOrReset i s t h).2 hc hct
    · exact .inr hreset
    · exact absurd hcomplete (not_complete_of_resyncing hrt)

theorem exec_keeps_canStart {i : Instr} {s t : State} (h : exec i s = .next t) (hg : s.recoveryCanStart = true) :
    t.recoveryCanStart = true ∨ i = .scStart ∨ i = .reset := by
  obtain ⟨hr, hc, hidle⟩ := recoveryCanStart_iff.mp hg
  have hi : i ≠ .scFinish := ne_scFinish_of_canStart h hg
  obtain ⟨hrt, hct⟩ | hreset := exec_keeps_capture_pending h hr hc hi
  · obtain ⟨hsc, -⟩ | ⟨hstart, -⟩ | ⟨-, -, hsc, -⟩ | ⟨hfinish, -⟩ | ⟨hreset, -⟩ := exec_recovery h
    · exact .inl (recoveryCanStart_iff.mpr ⟨hrt, hct, hsc.trans hidle⟩)
    · exact .inr (.inl hstart)
    · exact .inl (recoveryCanStart_iff.mpr ⟨hrt, hct, hsc.trans hidle⟩)
    · exact absurd hfinish hi
    · exact .inr (.inr hreset)
  · exact .inr (.inr hreset)

/-- The full count is not counted on, and SC.START does not exist in `SC_QUIET`. -/
theorem exec_keeps_canFinish {i : Instr} {s t : State} (h : exec i s = .next t) (hg : s.recoveryCanFinish = true) :
    t.recoveryCanFinish = true ∨ i = .scFinish ∨ i = .reset := by
  obtain ⟨hquiet, hcnt⟩ := recoveryCanFinish_iff.mp hg
  obtain ⟨hp, -⟩ := exec_keeps_params_schedule h
  obtain ⟨hsc, hq⟩ | ⟨-, hstart, -⟩ | ⟨-, hlt, -⟩ | ⟨hfinish, -⟩ | ⟨hreset, -⟩ := exec_recovery h
  · exact .inl (recoveryCanFinish_iff.mpr ⟨hsc.trans hquiet, by rw [hq, hp, hcnt]⟩)
  · exact absurd hg (not_canFinish_of_canStart hstart)
  · omega
  · exact .inr (.inl hfinish)
  · exact .inr (.inr hreset)

/-- Settles O37: `resyncing` falls by SC.FINISH only, `capturing` not while a resync is pending, and `sc_state` and a
full count move by the recovery steps and hardware reset only. -/
theorem enabledRecoveryStaysEnabled : Obligations.EnabledRecoveryStaysEnabled :=
  fun _ _ _ h => ⟨exec_keeps_canStart h, exec_keeps_canFinish h⟩

/-! ## No reception in the quiet interval -/

/-- Settles O38: reception is not armed in `SC_QUIET` (I3), so a presented packet is not received. -/
theorem noPacketIsReceivedInTheQuietInterval : Obligations.NoPacketIsReceivedInTheQuietInterval := by
  intro s p rest hs hq hsched
  obtain ⟨-, -, ha⟩ := hs.quietMeansRecovering hq
  obtain ⟨-, hstep⟩ := unarmedPacketIsNotReceived s ha
  exact ⟨hstep p rest hsched, exec_rxReceive_of_unarmed p ha⟩

/-! ## How many ticks a re-arming takes -/

/-- The first step of a run that ends in a state. -/
theorem execAll_cons {i : Instr} {is : List Instr} {s t : State} (h : execAll (i :: is) s = .next t) :
    ∃ u, exec i s = .next u ∧ execAll is u = .next t := by
  simp only [execAll] at h
  split at h
  · next u hu => exact ⟨u, hu, h⟩
  · cases h
  · cases h

/-- The ticks that must come before the next SC.FINISH: those the count lacks in `SC_QUIET`, a whole interval's in
`SC_IDLE`, whose count SC.START clears (43_sync_controller.md R132). -/
def State.missingTicks (s : State) : Nat :=
  match s.scState with
  | .idle => s.params.quietTicks
  | .quiet => s.params.quietTicks - s.quietCnt

theorem missingTicks_of_idle {s : State} (h : s.scState = .idle) : s.missingTicks = s.params.quietTicks := by
  rw [State.missingTicks, h]

theorem missingTicks_of_quiet {s : State} (h : s.scState = .quiet) :
    s.missingTicks = s.params.quietTicks - s.quietCnt := by
  rw [State.missingTicks, h]

theorem missingTicks_le_quietTicks (s : State) : s.missingTicks ≤ s.params.quietTicks := by
  cases h : s.scState with
  | idle => exact (missingTicks_of_idle h).le
  | quiet => exact (missingTicks_of_quiet h).trans_le (Nat.sub_le _ _)

theorem missingTicks_of_canFinish {s : State} (h : s.recoveryCanFinish = true) : s.missingTicks = 0 := by
  obtain ⟨hquiet, hcnt⟩ := recoveryCanFinish_iff.mp h
  rw [missingTicks_of_quiet hquiet, hcnt, Nat.sub_self]

/-- Counting on by one in the same `sc_state` brings the end at most one tick nearer. -/
theorem missingTicks_le_add {s t : State} {n : Nat} (hp : t.params = s.params) (hsc : t.scState = s.scState)
    (hq : t.quietCnt = s.quietCnt + n) : s.missingTicks ≤ t.missingTicks + n := by
  cases h : s.scState with
  | idle =>
    rw [missingTicks_of_idle h, missingTicks_of_idle (hsc.trans h), hp]
    exact Nat.le_add_right _ _
  | quiet =>
    rw [missingTicks_of_quiet h, missingTicks_of_quiet (hsc.trans h), hp, hq]
    omega

/-- No row brings the end of the quiet interval nearer but a tick, and a tick by one at most. -/
theorem exec_missingTicks {i : Instr} {s t : State} (h : exec i s = .next t) :
    s.missingTicks ≤ t.missingTicks + if i = .scTick then 1 else 0 := by
  obtain ⟨hp, -⟩ := exec_keeps_params_schedule h
  have hle : s.missingTicks ≤ t.params.quietTicks := hp ▸ missingTicks_le_quietTicks s
  obtain ⟨hsc, hq⟩ | ⟨-, -, hsc, hq⟩ | ⟨rfl, -, hsc, hq⟩ | ⟨-, hg⟩ | ⟨-, hsc⟩ := exec_recovery h
  · exact Nat.le_add_right_of_le (missingTicks_le_add (n := 0) hp hsc hq)
  · rw [missingTicks_of_quiet hsc, hq]
    omega
  · exact missingTicks_le_add hp hsc hq
  · rw [missingTicks_of_canFinish hg]
    exact Nat.zero_le _
  · rw [missingTicks_of_idle hsc]
    omega

/-- SC.FINISH alone arms reception. -/
theorem missingTicks_of_rearmed {i : Instr} {s t : State} (h : exec i s = .next t) (hs : s.armed = false)
    (ht : t.armed = true) : s.missingTicks = 0 := by
  obtain rfl := (onlyRecoveryMovesArmed i s t h).1 hs ht
  by_cases hg : s.recoveryCanFinish = true
  · exact missingTicks_of_canFinish hg
  · rw [exec_scFinish_refused hg] at h
    cases h

/-- A run that ends armed has passed the first SC.FINISH, and what was missing at its start has come before that. -/
theorem execAll_missingTicks_le {is : List Instr} {s t : State} (hs : s.armed = false) (h : execAll is s = .next t)
    (ht : t.armed = true) : s.missingTicks ≤ is.count .scTick := by
  induction is generalizing s with
  | nil =>
    cases h
    simp [hs] at ht
  | cons i is ih =>
    obtain ⟨u, hu, hrun⟩ := execAll_cons h
    cases ha : u.armed with
    | true => exact (missingTicks_of_rearmed hu hs ha).trans_le (Nat.zero_le _)
    | false =>
      calc s.missingTicks
        _ ≤ u.missingTicks + if i = .scTick then 1 else 0 := exec_missingTicks hu
        _ ≤ is.count .scTick + if i = .scTick then 1 else 0 := Nat.add_le_add_right (ih ha hrun) _
        _ = (i :: is).count .scTick := by simp [List.count_cons]

theorem quietMin_le_of_wf {p : Params} (h : p.wf = true) : p.quietMin ≤ (p.quietTicks - 1) * p.tTick := by
  simp only [Params.wf, Bool.and_eq_true, decide_eq_true_eq] at h
  obtain ⟨⟨-, hmin⟩, -⟩ := h
  exact hmin

/-- Settles O39: the missing ticks are in the run; all of `QUIET_TICKS` are missing where nothing has been counted, and
the constraint of R7 makes their time `QUIET_MIN`. -/
theorem recoveryNeverFinishesEarly : Obligations.RecoveryNeverFinishesEarly := by
  intro is s t hs h ht
  have hticks : s.missingTicks ≤ is.count .scTick := execAll_missingTicks_le hs h ht
  refine ⟨fun hq => missingTicks_of_quiet hq ▸ hticks, fun hi => missingTicks_of_idle hi ▸ hticks, fun hwf h0 => ?_⟩
  have hall : s.missingTicks = s.params.quietTicks := by
    cases hsc : s.scState with
    | idle => exact missingTicks_of_idle hsc
    | quiet => rw [missingTicks_of_quiet hsc, h0 hsc, Nat.sub_zero]
  exact (quietMin_le_of_wf hwf).trans (Nat.mul_le_mul_right _ (Nat.sub_le_sub_right (hall ▸ hticks) 1))

end Sys2Proof.Machine
end

section
/-! PROOFS. 44_host_interface.md: the outcomes of each command, and what the host, short of hardware reset, never
writes. -/

namespace Sys2Proof.Machine

/-! ## CMD.SET_GEOMETRY and CMD.CAPTURE_START -/

theorem exec_cmdSetGeometry_busy (h v : BitVec 16) {s : State} (hc : s.capturing = true) :
    exec (.cmdSetGeometry h v) s = .next (s.respond .busy) := if_pos hc

theorem exec_cmdSetGeometry_ok (h v : BitVec 16) {s : State} (hc : s.capturing = false) :
    exec (.cmdSetGeometry h v) s = .next (State.respond .ok { s.restartCounters with hRes := h, vRes := v }) :=
  if_neg (by simp [hc])

theorem configured_iff {s : State} :
    s.configured = true ↔ s.hRes ≠ 0#16 ∧ s.vRes ≠ 0#16 ∧ s.fmtSel = true := by
  simp [State.configured, and_assoc]

theorem configured_eq_false_iff {s : State} :
    s.configured = false ↔ s.hRes = 0#16 ∨ s.vRes = 0#16 ∨ s.fmtSel = false := by
  rw [← Bool.not_eq_true, configured_iff, not_and_or, not_and_or, not_not, not_not, Bool.not_eq_true]

/-- The configuration is tested first (44_host_interface.md R143). -/
theorem exec_cmdCaptureStart_notConfigured {s : State} (hg : s.configured = false) :
    exec .cmdCaptureStart s = .next (s.respond .notConfigured) :=
  if_pos (by simp [hg])

theorem exec_cmdCaptureStart_of_configured {s : State} (hg : s.configured = true) :
    exec .cmdCaptureStart s = if s.capturing then .next (s.respond .busy)
      else .next (State.respond .ok { s.restartCounters with
        capturing := true, resyncing := s.resyncing || s.params.captureForcesResync }) :=
  if_neg (by simp [hg])

theorem exec_cmdCaptureStart_busy {s : State} (hg : s.configured = true) (hc : s.capturing = true) :
    exec .cmdCaptureStart s = .next (s.respond .busy) := by
  rw [exec_cmdCaptureStart_of_configured hg, if_pos hc]

theorem exec_cmdCaptureStart_ok {s : State} (hg : s.configured = true) (hc : s.capturing = false) :
    exec .cmdCaptureStart s = .next (State.respond .ok { s.restartCounters with
      capturing := true, resyncing := s.resyncing || s.params.captureForcesResync }) := by
  rw [exec_cmdCaptureStart_of_configured hg, if_neg (by simp [hc])]

/-! ## The commands' outcomes -/

/-- Settles O41: both outcomes of the row. -/
theorem setGeometryWritesTheResolution : Obligations.SetGeometryWritesTheResolution :=
  fun h v _ => ⟨exec_cmdSetGeometry_ok h v, exec_cmdSetGeometry_busy h v⟩

/-- Settles O42: the row tests nothing. -/
theorem setFormatWritesTheFlag : Obligations.SetFormatWritesTheFlag := fun _ _ => rfl

/-- Settles O43: the three outcomes in their order; where the parameter sets `resyncing` it is set already or set now,
where it does not it stays. -/
theorem captureStartBeginsACapture : Obligations.CaptureStartBeginsACapture := by
  intro s
  refine ⟨fun hn => ?notConfigured, fun hh hv hf hc => ?busy, fun hh hv hf hc => ?ok⟩
  case notConfigured => exact exec_cmdCaptureStart_notConfigured (configured_eq_false_iff.mpr hn)
  case busy => exact exec_cmdCaptureStart_busy (configured_iff.mpr ⟨hh, hv, hf⟩) hc
  case ok =>
    have hr : (s.resyncing || s.params.captureForcesResync) =
        if s.params.captureForcesResync then true else s.resyncing := by
      cases s.params.captureForcesResync <;> simp
    rw [exec_cmdCaptureStart_ok (configured_iff.mpr ⟨hh, hv, hf⟩) hc, hr]
    rfl

/-- Settles O44: the row answers and writes nothing else. -/
theorem reservedCommandIsIllegal : Obligations.ReservedCommandIsIllegal := fun _ => rfl

/-! ## What the host writes -/

/-- What a row of the host other than RESET can do: its outputs only, or one of the three commands answered OK. -/
theorem exec_host_next {i : Instr} {s t : State} (h : exec i s = .next t) (ha : agentOf i = .host)
    (hi : i ≠ .reset) :
    (∃ o, t = s.emit o) ∨ (∃ b, t = State.respond .ok { s with fmtSel := b }) ∨
      (s.capturing = false ∧ ∃ hh vv, t = State.respond .ok { s.restartCounters with hRes := hh, vRes := vv }) ∨
      (s.capturing = false ∧ t = State.respond .ok { s.restartCounters with
        capturing := true, resyncing := s.resyncing || s.params.captureForcesResync }) := by
  obtain ho | ⟨-, -, c, pl, -, -, hpkt⟩ | ⟨hh, vv, -, hc, ht⟩ | ⟨b, -, ht⟩ | ⟨-, -, hc, ht⟩ |
    ⟨rfl, -, -⟩ | ⟨rfl, -⟩ | ⟨rfl, -, -⟩ | ⟨rfl, -⟩ := exec_next h
  · exact .inl ho
  · rw [agentOf_packet hpkt] at ha
    cases ha
  · exact .inr (.inr (.inl ⟨hc, hh, vv, ht⟩))
  · exact .inr (.inl ⟨b, ht⟩)
  · exact .inr (.inr (.inr ⟨hc, ht⟩))
  · cases ha
  · cases ha
  · cases ha
  · exact absurd rfl hi

/-- Settles O58: the two commands that write a counter run outside a capture only, and of the host's writes only a
capture start touches `capturing`, which it sets, and `resyncing`, which it sets under its parameter. -/
theorem hostWritesOnlyItsOwn : Obligations.HostWritesOnlyItsOwn := by
  intro i s t h ha hi
  obtain ⟨o, rfl⟩ | ⟨b, rfl⟩ | ⟨hc, hh, vv, rfl⟩ | ⟨hc, rfl⟩ := exec_host_next h ha hi
  · exact ⟨rfl, rfl, rfl, rfl, id, id, .inl, fun _ => ⟨rfl, rfl, rfl⟩⟩
  · exact ⟨rfl, rfl, rfl, rfl, id, id, .inl, fun _ => ⟨rfl, rfl, rfl⟩⟩
  · exact ⟨rfl, rfl, rfl, rfl, id, id, .inl, fun hct => by simp [hc] at hct⟩
  · exact ⟨rfl, rfl, rfl, rfl, fun _ => rfl, fun hr => Bool.or_eq_true_iff.mpr (.inl hr), Bool.or_eq_true_iff.mp,
      fun hct => by simp [hc] at hct⟩

end Sys2Proof.Machine
end

section
/-! PROOFS. 60_exceptions.md: what raises SyncLost, that a pending recovery runs to its end, what the producer and the
recovery FSM never write, and which steps pulse `pkt_evt`. -/

namespace Sys2Proof.Machine

/-! ## The causes of SyncLost (R162) -/

/-- The Frame Assembler leaves a resync pending through one of its two mismatches, each where it does not restart the
counters (42_frame_assembler.md R118, R120). -/
theorem onPacket_raises_syncLost {c : PacketClass} {pl : Payload} {s t : State} (h : onPacket c pl s = .next t)
    (hr : s.resyncing = false) (ht : t.resyncing = true) :
    ∃ pid seg, fieldsOf c = some (pid, seg) ∧ s.expectedPacketId ≠ s.packetsPerFrame ∧
      ((pid ≠ s.expectedId ∧ s.expectedPacketId ≠ 0#8) ∨
        (pid = s.expectedId ∧ wrongSegment s.expectedSegmentId c = true ∧ s.expectedSegmentId ≠ 1#3)) := by
  have unchanged : ∀ {u : State}, u.resyncing = s.resyncing → u.resyncing ≠ true := fun e => by simp [e, hr]
  obtain ⟨-, rfl⟩ | ⟨pid, seg, hf, hc, ⟨hid, rfl⟩ | ⟨hid, hw, rfl⟩ | ⟨-, -, -, rfl⟩⟩ := onPacket_next h
  · exact absurd ht (unchanged rfl)
  · obtain ⟨-, e⟩ | ⟨h0, -⟩ := idMismatch_cases s
    · exact absurd ht (unchanged (by rw [e]; rfl))
    · exact ⟨pid, seg, hf, hc, .inl ⟨hid, h0⟩⟩
  · obtain ⟨-, e⟩ | ⟨h1, -⟩ := segmentMismatch_cases s
    · exact absurd ht (unchanged (by rw [e]; rfl))
    · exact ⟨pid, seg, hf, hc, .inr ⟨hid, hw, h1⟩⟩
  · exact absurd ht (unchanged rfl)

/-- The places of a special packet after the first segment, where I2 puts the segment counter above 1. -/
theorem Invariants.laterSpecialPlace {s : State} (h : Invariants s) (hppf : s.packetsPerFrame = 240#8)
    (hplace : s.expectedPacketId.toNat % 60 = 20) (hseg : s.expectedSegmentId ≠ 1#3) :
    s.expectedPacketId.toNat ∈ [80, 140, 200] := by
  have hle : s.expectedPacketId.toNat ≤ 240 := by
    have hle := h.countInFrame
    rw [hppf] at hle
    exact hle
  have hlater : ¬s.expectedPacketId.toNat < 60 := mt h.firstSegment_iff.mpr hseg
  simp only [List.mem_cons, List.not_mem_nil, or_false]
  omega

/-- Settles O33: one of the assembler's two mismatches raises SyncLost, and each raises it under the stated condition. -/
theorem syncLostHasExactlyTwoCauses : Obligations.SyncLostHasExactlyTwoCauses := by
  intro c pl s hs ha hr hfits
  constructor
  · rintro ⟨t, h, ht⟩
    rw [exec_toInstr_run pl ha hr hfits] at h
    obtain ⟨pid, seg, hf, hc, ⟨hid, h0⟩ | ⟨hid, hw, h1⟩⟩ := onPacket_raises_syncLost h hr ht
    · have hpos : 0 < s.expectedPacketId.toNat := Nat.pos_of_ne_zero fun h => h0 (BitVec.eq_of_toNat_eq h)
      exact .inl ⟨pid, seg, hf, hpos, hs.count_lt hc, mt eq_expectedId_iff.mpr hid⟩
    · obtain ⟨seg', rfl, hne⟩ := wrongSegment_iff.mp hw
      cases hf
      exact .inr ⟨seg, rfl, of_decide_eq_true hfits, (eq_expectedId_iff.mp hid).symm, hne, h1⟩
  · rintro (⟨pid, seg, hf, hpos, hlt, hid⟩ | ⟨seg, rfl, hppf, hplace, hne, h1⟩)
    · exact ⟨_, mismatchOutsideHuntingLosesSync c pid seg pl s ha hr hpos hlt hfits hf hid, rfl⟩
    · have hid := hs.laterSpecialPlace hppf hplace h1
      exact ⟨_, wrongLaterSegmentLosesSync seg pl s hs ha hr hppf hid hne, rfl⟩

/-! ## A pending recovery runs to its end (R164) -/

theorem runSteps_succ {s u : State} (h : step s = .next u) (k : Nat) : runSteps (k + 1) s = runSteps k u := by
  simp only [runSteps, h]

theorem step_of_unscheduled {s : State} (h : s.schedule = []) : step s = exec s.ownMove s :=
  step_of_fetch_ok (by simp only [fetch, h])

theorem step_starts_recovery {s : State} (h : s.schedule = []) (hg : s.recoveryCanStart = true) :
    step s = .next s.beginQuiet.quietly := by
  have hmove : s.ownMove = .scStart := if_pos hg
  rw [step_of_unscheduled h, hmove, exec_scStart_of_enabled hg]

theorem not_canStart_of_quiet {s : State} (hq : s.scState = .quiet) : ¬s.recoveryCanStart = true := by
  simp [recoveryCanStart_iff, hq]

theorem step_finishes_recovery {s : State} (h : s.schedule = []) (hg : s.recoveryCanFinish = true) :
    step s = .next s.returnFromResync.quietly := by
  have hstart : ¬s.recoveryCanStart = true := fun hstart => not_canFinish_of_canStart hstart hg
  have hmove : s.ownMove = .scFinish := (if_neg hstart).trans (if_pos hg)
  rw [step_of_unscheduled h, hmove, exec_scFinish_of_enabled hg]

theorem step_counts_quiet {s : State} (h : s.schedule = []) (hq : s.scState = .quiet)
    (hlt : s.quietCnt < s.params.quietTicks) :
    step s = .next (State.quietly { s with quietCnt := s.quietCnt + 1 }) := by
  have hfinish : ¬s.recoveryCanFinish = true := by simp [recoveryCanFinish_iff, hlt.ne]
  have hmove : s.ownMove = .scTick := (if_neg (not_canStart_of_quiet hq)).trans (if_neg hfinish)
  rw [step_of_unscheduled h, hmove, exec_scTick, countTick_of_counting ⟨hq, hlt⟩]

/-- The rest of a quiet interval, by induction on the ticks its count still lacks: they come one after another, and
SC.FINISH ends it. -/
theorem runSteps_of_quiet {k : Nat} {s : State} (h : s.schedule = []) (hq : s.scState = .quiet)
    (hk : s.quietCnt + k = s.params.quietTicks) :
    runSteps (k + 1) s =
      .next (State.returnFromResync { s with quietCnt := s.params.quietTicks }).quietly := by
  induction k generalizing s with
  | zero =>
    rw [runSteps_succ (step_finishes_recovery h (recoveryCanFinish_iff.mpr ⟨hq, hk⟩)), ← hk]
    rfl
  | succ k ih =>
    have hnext : s.quietCnt + 1 + k = s.params.quietTicks := by omega
    rw [runSteps_succ (step_counts_quiet h hq (by omega)),
      ih (s := State.quietly { s with quietCnt := s.quietCnt + 1 }) h hq hnext]
    rfl

/-- Settles O40: SC.START clears the count, so `QUIET_TICKS` ticks and SC.FINISH are left. -/
theorem pendingRecoveryRunsToItsEnd : Obligations.PendingRecoveryRunsToItsEnd := by
  intro s h hg
  obtain ⟨-, hc, -⟩ := recoveryCanStart_iff.mp hg
  have hrun := runSteps_succ (step_starts_recovery h hg) (s.params.quietTicks + 1)
  rw [runSteps_of_quiet (s := s.beginQuiet.quietly) h rfl (Nat.zero_add s.params.quietTicks)] at hrun
  exact ⟨_, hrun, rfl, (faState_eq_hunting_iff _).mpr ⟨rfl, rfl⟩, rfl, rfl, hc, rfl, rfl, rfl, rfl, rfl⟩

/-! ## What the producer and the recovery FSM never write (R172) -/

theorem sameCore_emit (o : Outputs) (s : State) : SameCore s (s.emit o) :=
  ⟨rfl, rfl, rfl, rfl, rfl, rfl, rfl, rfl, rfl, rfl, rfl⟩

/-- The variables of other agents, none of which the Frame Assembler writes. -/
theorem onPacket_keeps_others {c : PacketClass} {pl : Payload} {s t : State} (h : onPacket c pl s = .next t) :
    t.hRes = s.hRes ∧ t.vRes = s.vRes ∧ t.fmtSel = s.fmtSel ∧ t.armed = s.armed ∧ t.scState = s.scState ∧
      t.quietCnt = s.quietCnt := by
  rw [onPacket_frame h]
  exact ⟨rfl, rfl, rfl, rfl, rfl, rfl⟩

/-- What a row of the producer can do: its outputs only, or a run of the Frame Assembler. -/
theorem exec_producer_next {i : Instr} {s t : State} (h : exec i s = .next t) (hi : agentOf i = .producer) :
    (∃ o, t = s.emit o) ∨ (s.resyncing = false ∧ ∃ c pl, onPacket c pl s.packetEvent = .next t) := by
  obtain ho | ⟨-, hr, c, pl, -, hn, -⟩ | ⟨hh, vv, rfl, -⟩ | ⟨b, rfl, -⟩ | ⟨rfl, -⟩ | ⟨rfl, -⟩ | ⟨rfl, -⟩ |
    ⟨rfl, -⟩ | ⟨rfl, -⟩ := exec_next h
  · exact .inl ho
  · exact .inr ⟨hr, c, pl, hn⟩
  all_goals cases hi

/-- Settles O56: the assembler's frame, that it runs with no resync pending only, and that it writes nothing in
COMPLETE. -/
theorem producerWritesOnlyItsOwn : Obligations.ProducerWritesOnlyItsOwn := by
  intro i s t h hi
  obtain ⟨o, rfl⟩ | ⟨hr, c, pl, hn⟩ := exec_producer_next h hi
  · exact ⟨rfl, rfl, rfl, rfl, rfl, rfl, id, id, fun _ => sameCore_emit o s⟩
  · obtain ⟨hhRes, hvRes, hfmt, harmed, hsc, hcnt⟩ := onPacket_keeps_others hn
    refine ⟨hhRes, hvRes, hfmt, harmed, hsc, hcnt, fun hrs => by simp [hr] at hrs, fun ht => ?capturing,
      fun hcomplete => ?complete⟩
    case capturing =>
      obtain e | ⟨e, -⟩ := onPacket_capturing (s := s.packetEvent) hr hn
      · exact e.symm.trans ht
      · simp [e] at ht
    case complete =>
      rw [onPacket_of_complete (s := s.packetEvent) hcomplete hn]
      exact sameCore_emit _ s

theorem agentOf_eq_recovery_iff {i : Instr} : agentOf i = .recovery ↔ i = .scStart ∨ i = .scFinish := by
  cases i <;> simp [agentOf]

theorem agentOf_eq_timebase_iff {i : Instr} : agentOf i = .timebase ↔ i = .scTick := by
  cases i <;> simp [agentOf]

/-- Settles O57: the updates of the three rows. -/
theorem recoveryWritesOnlyItsOwn : Obligations.RecoveryWritesOnlyItsOwn := by
  intro i s t h hi
  rw [agentOf_eq_recovery_iff, agentOf_eq_timebase_iff] at hi
  obtain (rfl | rfl) | rfl := hi
  · rw [exec_scStart_next h]
    exact ⟨rfl, rfl, rfl, rfl, rfl, nofun⟩
  · rw [exec_scFinish_next h]
    exact ⟨rfl, rfl, rfl, rfl, rfl, nofun⟩
  · cases (exec_scTick s).symm.trans h
    rw [countTick_frame]
    exact ⟨rfl, rfl, rfl, rfl, rfl, fun _ => sameCore_emit _ s⟩

/-! ## Which steps pulse `pkt_evt` (R169) -/

/-- A `PKT` row is the whole step of a received packet, its event included (log 9). -/
theorem assemble_out {m : String} {c : PacketClass} {pl : Payload} {s t : State} (h : assemble m c pl s = .next t) :
    t.out = ⟨true, none, none, none⟩ := by
  obtain ⟨-, -, -, hn⟩ := assemble_next h
  exact onPacket_out hn

theorem exec_rxDrop_next {s t : State} (h : exec .rxDrop s = .next t) : t = s.packetEvent := by
  simp only [exec, execRxDrop] at h
  split at h <;> cases h
  rfl

theorem exec_rxUnarmed_next {s t : State} (h : exec .rxUnarmed s = .next t) : t = s.quietly := by
  simp only [exec, execRxUnarmed] at h
  split at h <;> cases h
  rfl

theorem exec_fbRead_next {i : BitVec 15} {s t : State} (h : exec (.fbRead i) s = .next t) :
    t = s.emit ⟨false, none, none, some (s.sample i.toNat)⟩ := by
  simp only [exec, execFbRead] at h
  split at h <;> cases h
  rfl

theorem exec_cmdSetGeometry_pktEvt {h v : BitVec 16} {s t : State} (hn : exec (.cmdSetGeometry h v) s = .next t) :
    t.out.pktEvt = false := by
  cases hc : s.capturing with
  | true => cases (exec_cmdSetGeometry_busy h v hc).symm.trans hn; rfl
  | false => cases (exec_cmdSetGeometry_ok h v hc).symm.trans hn; rfl

theorem exec_cmdCaptureStart_pktEvt {s t : State} (h : exec .cmdCaptureStart s = .next t) : t.out.pktEvt = false := by
  cases hg : s.configured with
  | false => cases (exec_cmdCaptureStart_notConfigured hg).symm.trans h; rfl
  | true =>
    cases hc : s.capturing with
    | true => cases (exec_cmdCaptureStart_busy hg hc).symm.trans h; rfl
    | false => cases (exec_cmdCaptureStart_ok hg hc).symm.trans h; rfl

theorem exec_pktEvt {i : Instr} {s t : State} (h : exec i s = .next t) : t.out.pktEvt = isReception i := by
  cases i with
  | pktDiscard pl => rw [assemble_out h]; rfl
  | pktSpecial seg pl => rw [assemble_out h]; rfl
  | pktNormal pid seg pl => rw [assemble_out h]; rfl
  | pktOor pid seg pl => rw [assemble_out h]; rfl
  | cmdSetGeometry hh vv => exact exec_cmdSetGeometry_pktEvt h
  | cmdSetFormat b => cases h; rfl
  | cmdCaptureStart => exact exec_cmdCaptureStart_pktEvt h
  | cmdReserved => cases h; rfl
  | stRead sel => cases h; rfl
  | fbRead j => rw [exec_fbRead_next h]; rfl
  | rxReceive p => rw [exec_rxReceive_out h]; rfl
  | rxDrop => rw [exec_rxDrop_next h]; rfl
  | rxUnarmed => rw [exec_rxUnarmed_next h]; rfl
  | scStart => rw [exec_scStart_next h]; rfl
  | scTick => cases h; rfl
  | scFinish => rw [exec_scFinish_next h]; rfl
  | reset => cases h; rfl

/-- Settles O59: each row's outputs, by its own lemma. -/
theorem packetEventMarksReceptionExactly : Obligations.PacketEventMarksReceptionExactly := by
  intro i s t h
  rw [exec_pktEvt h]

end Sys2Proof.Machine
end

section
/-! PROOFS. 70_reset_and_hazards.md: hardware reset, the wait for a capture after it, and the core's own move. -/

namespace Sys2Proof.Machine

/-! ## Hardware reset (R180) -/

theorem exec_reset (s : State) : exec .reset s = .next s.afterReset := rfl

theorem afterReset_portByte (s : State) (i a : Nat) :
    s.afterReset.portByte i a = Config.freeByte s.afterReset.fbPowerUp none a :=
  portByte_of_not_complete (not_complete_of_resyncing rfl) i a

/-- Settles O2: the row writes the reset table over every state; after it no byte is listed, and in RESYNCING no read of
the frame buffer has a meaning. -/
theorem hardwareResetCompletesInEveryState : Obligations.HardwareResetCompletesInEveryState :=
  fun s => ⟨s.afterReset, exec_reset s, rfl, rfl, rfl, rfl, rfl, rfl, rfl, rfl, rfl, rfl, fun _ => rfl,
    afterReset_portByte s, rfl⟩

/-! ## The wait for a capture (R181) -/

theorem exec_rxDrop_armed {s t : State} (h : exec .rxDrop s = .next t) : s.armed = true := by
  by_contra ha
  have hrefused : exec .rxDrop s = .refused (.notEnabled "RX.DROP") :=
    execRxDrop_refused (.inl (Bool.eq_false_of_not_eq_true ha))
  cases hrefused.symm.trans h

/-- A packet is received only while reception is armed (41_receiver.md R101). -/
theorem exec_reception_armed {i : Instr} {s t : State} (h : exec i s = .next t) (hi : isReception i = true) :
    s.armed = true := by
  cases i with
  | pktDiscard pl => exact (assemble_next h).1
  | pktSpecial seg pl => exact (assemble_next h).1
  | pktNormal pid seg pl => exact (assemble_next h).1
  | pktOor pid seg pl => exact (assemble_next h).1
  | rxReceive p => exact (execRxReceive_next h).1
  | rxDrop => exact exec_rxDrop_armed h
  | _ => cases hi

theorem exec_pktEvt_of_unarmed {i : Instr} {s t : State} (h : exec i s = .next t) (ha : s.armed = false) :
    t.out.pktEvt = false := by
  rw [exec_pktEvt h]
  exact Bool.eq_false_of_not_eq_true fun hi => Bool.false_ne_true (ha.symm.trans (exec_reception_armed h hi))

theorem not_canStart_of_not_capturing {s : State} (hc : s.capturing = false) : ¬s.recoveryCanStart = true := by
  simp [recoveryCanStart_iff, hc]

theorem not_canFinish_of_idle {s : State} (hsc : s.scState = .idle) : ¬s.recoveryCanFinish = true := by
  simp [recoveryCanFinish_iff, hsc]

/-- Unarmed, the core runs no packet; without a capture no SC.START, in `SC_IDLE` no SC.FINISH exists; of the rows left
only an accepted capture start writes one of the four variables, hardware reset apart, which sets them as they stand. -/
theorem exec_keeps_waiting {i : Instr} {s t : State} (h : exec i s = .next t) (hr : s.resyncing = true)
    (ha : s.armed = false) (hc : s.capturing = false) (hsc : s.scState = .idle) :
    (t.resyncing = true ∧ t.armed = false ∧ t.capturing = false ∧ t.scState = .idle) ∨
      (i = .cmdCaptureStart ∧ s.configured = true) := by
  obtain ⟨o, rfl⟩ | ⟨harmed, -⟩ | ⟨hh, vv, -, -, rfl⟩ | ⟨b, -, rfl⟩ | ⟨hi, hg, -, -⟩ |
    ⟨-, hstart, -⟩ | ⟨-, rfl⟩ | ⟨-, hfinish, -⟩ | ⟨-, rfl⟩ := exec_next h
  · exact .inl ⟨hr, ha, hc, hsc⟩
  · exact absurd (ha.symm.trans harmed) Bool.false_ne_true
  · exact .inl ⟨hr, ha, hc, hsc⟩
  · exact .inl ⟨hr, ha, hc, hsc⟩
  · exact .inr ⟨hi, hg⟩
  · exact absurd hstart (not_canStart_of_not_capturing hc)
  · rw [countTick_frame]
    exact .inl ⟨hr, ha, hc, hsc⟩
  · exact absurd hfinish (not_canFinish_of_idle hsc)
  · exact .inl ⟨rfl, rfl, rfl, rfl⟩

/-- Settles O3: the reset state by its table; the four variables stay by the rows' inversion, and no packet event is
pulsed because no row of a reception runs unarmed. -/
theorem resetCoreWaitsForACapture : Obligations.ResetCoreWaitsForACapture := by
  refine ⟨⟨faState_of_resyncing rfl, rfl, rfl, rfl, rfl, rfl⟩, fun i s t hr ha hc hsc h => ?_⟩
  obtain ⟨hrt, hat, hct, hsct⟩ | hcapture := exec_keeps_waiting h hr ha hc hsc
  · exact .inl ⟨hrt, hat, hct, hsct, exec_pktEvt_of_unarmed h ha⟩
  · exact .inr hcapture

/-! ## The core's own move (R195) -/

theorem ownMove_of_canStart {s : State} (hstart : s.recoveryCanStart = true) : s.ownMove = .scStart := if_pos hstart

theorem ownMove_of_canFinish {s : State} (hstart : s.recoveryCanStart = false) (hfinish : s.recoveryCanFinish = true) :
    s.ownMove = .scFinish := by
  simp [State.ownMove, hstart, hfinish]

theorem ownMove_of_neither {s : State} (hstart : s.recoveryCanStart = false) (hfinish : s.recoveryCanFinish = false) :
    s.ownMove = .scTick := by
  simp [State.ownMove, hstart, hfinish]

/-- Settles O14: with nothing scheduled the step runs the core's own move, which the two guards decide in order. -/
theorem unscheduledStepIsRecoveryOrTick : Obligations.UnscheduledStepIsRecoveryOrTick := by
  intro s h
  rw [step_of_unscheduled h]
  exact ⟨fun hstart => by rw [ownMove_of_canStart hstart],
    fun hstart hfinish => by rw [ownMove_of_canFinish hstart hfinish],
    fun hstart hfinish => by rw [ownMove_of_neither hstart hfinish]⟩

end Sys2Proof.Machine
end

section
/-! PROOFS. 95_test_vectors.md: what a table word decodes to, by the header fields or the command code it holds (log
10), and the words written out from the spec. -/

namespace Sys2Proof

theorem decodeTableWord_of_decodeRow {nbits w : Nat} {x : Stimulus} {i : Instr} (hx : tableStimulus nbits w = some x)
    (hi : decodeRow Config.ppfMulti x = .ok i) : decodeTableWord nbits w = some i := by
  simp only [decodeTableWord, hx, hi]

/-! ## A word of up to 8 bits is a command code -/

theorem decodeTableWord_command {nbits : Nat} (hn : nbits ≤ 8) (w : Nat) :
    decodeTableWord nbits w = some (decodeCommand (BitVec.ofNat 2 w) 0#32) :=
  decodeTableWord_of_decodeRow (if_pos hn) rfl

/-! ## A word of 9 to 32 bits is a packet header (30_encoding.md R71) -/

/-- The packet with the header word `w` and a zero payload. -/
def headerWordPacket (w : Nat) : Packet :=
  ⟨BitVec.ofNat 8 (w / 2 ^ 24), BitVec.ofNat 8 (w / 2 ^ 16), BitVec.ofNat 8 (w / 2 ^ 8), BitVec.ofNat 8 w,
    Vector.replicate 160 0#8⟩

theorem headerWordPacket_bytes (w : Nat) : (headerWordPacket w).bytes = headerWordBytes w := by
  simp only [Packet.bytes, headerWordPacket, headerWordBytes, Vector.toList_replicate]

theorem packetId_headerWord (w : Nat) :
    packetId (BitVec.ofNat 8 (w / 2 ^ 24)) (BitVec.ofNat 8 (w / 2 ^ 16)) = BitVec.ofNat 12 (w / 2 ^ 16) := by
  apply BitVec.eq_of_toNat_eq
  simp only [packetId_toNat, BitVec.toNat_ofNat]
  omega

theorem segmentId_headerWord (w : Nat) :
    segmentId (BitVec.ofNat 8 (w / 2 ^ 24)) = BitVec.ofNat 3 (w / 2 ^ 28) := by
  apply BitVec.eq_of_toNat_eq
  simp only [segmentId_toNat, BitVec.toNat_ofNat]
  omega

/-- The header word's id is its bits 27:16 and its segment number its bits 30:28; they alone give the class. -/
theorem classOf_headerWordPacket (w : Nat) (ppf : BitVec 8) :
    (headerWordPacket w).classOf ppf =
      classOfFields (BitVec.ofNat 12 (w / 2 ^ 16)) (BitVec.ofNat 3 (w / 2 ^ 28)) ppf := by
  rw [← packetId_headerWord, ← segmentId_headerWord]
  exact classify_eq_classOfFields _ _ _ _ ppf

theorem decodeTableWord_header {nbits : Nat} (hlo : 8 < nbits) (hhi : nbits ≤ 32) (w : Nat) :
    decodeTableWord nbits w =
      some ((classOfFields (BitVec.ofNat 12 (w / 2 ^ 16)) (BitVec.ofNat 3 (w / 2 ^ 28)) Config.ppfMulti).toInstr
        (Vector.replicate 160 0#8)) := by
  have hx : tableStimulus nbits w = some (.packet (headerWordPacket w).bytes) := by
    rw [tableStimulus, if_neg (Nat.not_le.mpr hlo), if_pos hhi, headerWordPacket_bytes]
  rw [decodeTableWord_of_decodeRow hx (decodeRow_packet_of_ok (parsePacket_bytes _) _), Packet.toRow,
    classOf_headerWordPacket]
  rfl

/-! ## The words of the spec -/

/-- Settles O9: a header word is read by its two fields, a command word by its code, and every other stimulus is one
row. -/
theorem knownWordsDecodeToTheirRows : Obligations.KnownWordsDecodeToTheirRows := by
  have header := @decodeTableWord_header 32 (by decide) (by decide)
  refine ⟨?discard, ?special, ?normal, ?oor, ?captureStart, ?setGeometry, rfl, rfl⟩
  case discard => exact header _
  case special => exact header _
  case normal => exact header _
  case oor => exact header _
  case captureStart => exact decodeTableWord_command (Nat.le_refl 8) 2
  case setGeometry => exact congrArg Except.ok (decodeCommand_setGeometry 80#16 60#16)

end Sys2Proof
end
